-- ==== Sys2Proof/Word.lean ====
section
/-! DEFINITION. The word types of the GKP256 model. -/
namespace Sys2Proof

/-- A byte of a frame, a message or a memory. -/
abbrev Byte := BitVec 8
/-- A 16-bit half word. -/
abbrev W16 := BitVec 16
/-- A 32-bit register word. -/
abbrev W32 := BitVec 32
/-- A 64-bit register, engine register or memory word. -/
abbrev W64 := BitVec 64

end Sys2Proof
end

