-- ==== Sys2Proof/Args.lean ====
section
/-! DEFINITION. The closed sets of names that the operands of the commands and the state range over. -/
namespace Sys2Proof

/-- The path a register access comes by: PCIe, SMBus (each with its own session and high-word latch, R352, R353), or
firmware on the management cores. -/
inductive Path where
  | pcie | smbus | fw
  deriving DecidableEq, Repr

/-- What a host write addresses: the registers of BAR0, the MSI-X table of BAR4 (Table 15-2), or the MSI-X control word
of the endpoint's configuration space. -/
inductive Space where
  | bar0 | bar4 | msixCtl
  deriving DecidableEq, Repr

/-- The dies that hold a register queue of their own (R38), and the management die (R351). -/
inductive Die where
  | fd | qd | td | mgmt
  deriving DecidableEq, Repr

/-- The two dies that follow the pica mark (R30). -/
inductive MarkDie where
  | qd | td
  deriving DecidableEq, Repr

/-- Why the CORE group is held in reset (R40, R302, R336, R363, R399). -/
inductive Hold where
  | boot | fatal | halt | thermal | sysRst | pkg
  deriving DecidableEq, Repr

/-- The output balls the model drives by name. -/
inductive Pin where
  | ppsOut | arbHealth | arbFault | todTx | xspiReset
  deriving DecidableEq, Repr

/-- The reference clocks whose loss the model follows (Table 2-4). -/
inductive Ref where
  | lineA | lineB | fabA | fabB
  deriving DecidableEq, Repr

/-- Whose alignment machine evaluates a pattern (R64, R277, R308): a line port, with the marker identity that a matching
pattern shows where it is not the lane's own number (R68), a fabric lane or a twin-link lane. -/
inductive AlignGroup where
  | line (port : BitVec 7) (marker : Option (BitVec 8) := none) | fabric | twin
  deriving DecidableEq, Repr

/-- What a core header check found (R67). -/
inductive Chec where
  | correct | oneBit | bad
  deriving DecidableEq, Repr

/-- The overhead of one received OTN frame (R62): MFAS, BIP-8 errored blocks of SM and PM, BEI and BDI received, PM STAT,
this frame's trail trace bytes, and the payload type byte. -/
structure OtnOverhead where
  mfas : BitVec 8
  smBip : Nat
  pmBip : Nat
  smBei : Nat
  pmBei : Nat
  smBdi : Bool
  pmBdi : Bool
  stat : BitVec 3
  smTti : BitVec 8
  pmTti : BitVec 8
  pt : BitVec 8
  deriving DecidableEq, Repr

/-- The overhead an OTN port sends with its frames (R61 to R63, R71): both trail traces, the payload type, BDI and BEI. SM IAE
and BIAE, TCM1 to TCM6, delay measurement, APS/PCC and GCC0 to GCC2 are sent as zero, and PFI as 0 (Table 3-5). -/
structure OtnSend where
  smTti : List Byte
  pmTti : List Byte
  pt : BitVec 8 := 0x05
  smBdi : Bool
  pmBdi : Bool
  smBei : Nat
  pmBei : Nat
  unsupported : Nat := 0
  pfi : Bool := false
  deriving DecidableEq, Repr

/-- What the PCS and its RS-FEC decoded on a port in the second that ends (Table 3-12): codewords, those with corrections and
those uncorrectable, corrected symbols, and invalid 257-bit blocks. -/
structure PcsCounts where
  port : BitVec 7
  total : Nat
  corrected : Nat
  uncorrectable : Nat
  symbols : Nat
  blocks : Nat
  deriving DecidableEq, Repr

/-- What GFP-F tells of a client frame (Table 3-4): its UPI, and whether a pFCS was carried and did not match. -/
structure GfpInfo where
  upi : BitVec 8
  pfcsBad : Bool
  deriving DecidableEq, Repr

/-- A SAK that an MKA PDU distributes: its association and key numbers, the cipher suite (XPN or not), the confidentiality
offset as IEEE 802.1X codes it, and the key wrapped under the KEK. -/
structure SakDist where
  an : BitVec 2
  kn : BitVec 32
  xpn : Bool
  offset : BitVec 2
  wrapped : List Byte
  deriving DecidableEq, Repr

/-- What an MKA PDU says, once its ICV has been checked under the port's CAK: the sender's member identifier, message number,
SCI and key server priority, whether it lists the device as live, the key number of the SAK that it reports as installed for
receive, and a SAK it distributes. -/
structure MkPdu where
  icvOk : Bool
  member : List Byte
  number : BitVec 32
  sci : BitVec 64
  prio : BitVec 8
  live : Bool
  rxInstalled : Option (BitVec 32)
  sak : Option SakDist
  deriving DecidableEq, Repr

/-- What the test access port is given (R419): one of its instructions, another opcode, or TRST_N low, which resets the port
(Table 17-4, IEEE 1149.1). -/
inductive Jtag where
  | bypass | idcode | samplePreload | extest | clamp | highz | extestPulse | extestTrain | other | trst
  deriving DecidableEq, Repr

/-- A BFD session (R376). -/
structure BfdSession where
  myDisc : Nat := 0
  yourDisc : Nat := 0
  state : Nat := 1
  peerState : Nat := 1
  diag : Nat := 0
  txUs : Nat := 1000000
  rxUs : Nat := 1000000
  mult : Nat := 3
  peerTxUs : Nat := 0
  peerRxUs : Nat := 0
  peerMult : Nat := 0
  poll : Bool := false
  entry : Nat := 0
  ipv6 : Bool := false
  port : Nat := 0
  localAddr : List Byte := []
  peerAddr : List Byte := []
  deriving DecidableEq, Repr

/-- What the device section of a configuration store names (Table 14-7, order 1), with the user reason codes the store
names (R384) and the requested spare of each HBM stack (order 2, R244). The spec gives the store no byte layout within a
section, so a load brings its content as an operand (log entry 13). -/
structure StoreDevice where
  mode : BitVec 2
  myEp : BitVec 10
  member : Bool
  peerEp : BitVec 10
  egqBase : BitVec 4
  windowS : BitVec 12
  confirm : Bool
  names : List (BitVec 10)
  spares : List (BitVec 5)
  deriving DecidableEq, Repr

/-- One thing a store section sets (Table 14-7): a register by its BAR0 offset, an entry of a target of Table 15-9, a static
exact-match entry, a managed route or access-list entry, the record of a raw TD row, the MKA policy of a port, or a BFD
session. -/
inductive LoadItem where
  | reg (addr : BitVec 32) (value : BitVec 64)
  | table (target : Byte) (index : BitVec 32) (words : List (BitVec 64))
  | exact (table : BitVec 4) (result : BitVec 32) (key : BitVec 192)
  | route (table : BitVec 6) (prio : BitVec 16) (value mask : BitVec 320) (result : BitVec 64)
  | row (width : BitVec 2) (row : BitVec 22) (words : List (BitVec 64))
  | mka (port : BitVec 7) (xpn : Bool) (sakLife : BitVec 32) (scIdx : BitVec 13) (prio : BitVec 8) (sci : BitVec 64)
  | bfd (id : BitVec 14) (b : BfdSession)
  deriving DecidableEq, Repr

/-- An exact-match entry (Tables 6-2 and 6-3); an entry is valid while its store lists it. -/
structure XEntry where
  kind : Nat := 0
  table : Nat := 0
  hit : Bool := false
  aged : Bool := false
  expired : Bool := false
  ts : Nat := 0
  result : Nat := 0
  key : Nat := 0
  deriving DecidableEq, Repr

/-- A record of the mirror stream (Table 13-4): an exact-match entry of a store, a removal, a stream's SEQ, a BFD session,
and the begin and end of a snapshot. -/
inductive MirRec where
  | entry (store : Nat) (e : XEntry)
  | removal (store table key : Nat)
  | stream (id seq : Nat)
  | bfd (id : Nat) (b : BfdSession)
  | snapBegin
  | snapEnd
  deriving DecidableEq, Repr

/-- A hello (Table 13-3). -/
structure Hello where
  ver : Nat
  member : Nat
  principal : Bool
  synced : Bool
  roleDown : Bool
  snapReq : Bool
  resync : Bool
  ack : Nat
  pica : Nat
  deriving DecidableEq, Repr

/-- A cell of the twin link as received (R309), with DEST_EP and SRC_EP: an idle cell or one whose header fails, a hello, and
a data cell with the mirror records whose last byte it holds. -/
inductive TwinCell where
  | idle
  | hello (dest src : BitVec 10) (h : Hello)
  | data (dest src : BitVec 10) (seq : Nat) (recs : List MirRec)
  deriving DecidableEq, Repr

/-- A lane frame as received (Table 12-1): bits [6207:6144] (LANE, FRAME_CNT, RETIRED, reserved, CRC-16), how many of its
two codewords are uncorrectable, and its cells. -/
structure LaneFrame (c : Type) where
  head : W64
  bad : Fin 3
  cells : List c
  deriving DecidableEq, Repr

/-- A bit-cell upset of the ternary array (R165, R167): what a row holds from now on, whatever the shadow says. -/
structure TdUpset where
  row : BitVec 22
  valid : Bool
  value : BitVec 80
  mask : BitVec 80
  deriving DecidableEq, Repr

/-- What the read of a hit entry finds: nothing wrong, or an uncorrectable error of its shadow or of its result (R166). -/
inductive TdHitErr where
  | none | shadow | result
  deriving DecidableEq, Repr

/-- The hardware errors around one TD search: upsets of the array since the last command, port errors on the search and on
its re-issue (R168), and what each hit's reads find (R166). -/
structure TdFaults where
  upsets : List TdUpset := []
  port : Fin 3 := 0
  hits : List TdHitErr := []
  deriving DecidableEq, Repr

/-- How an engine program's instruction is issued: the thread, and the memory whose word read fails uncorrectably (R195:
0 register file, 1 program store, 2 thread memory, 3 cluster memory), if one does. -/
structure Issue where
  thread : BitVec 12
  bad : Option (Fin 4)
  deriving DecidableEq, Repr

/-- What an HBM read's check code says of the burst at its address (R234). -/
inductive HbmRes where
  | ok | corrected | uncorrectable
  deriving DecidableEq, Repr

/-- What start-up finds of one HBM stack (Table 10-6): its density in GiB, whether a channel has more failed data lanes than
spare lanes, and the pseudo-channels that fail their test. -/
structure HbmStart where
  density : Nat
  badLanes : Bool
  failed : List (BitVec 5)
  deriving DecidableEq, Repr

/-- One outside effect of the last command: what left the device at its pins and links. -/
inductive Out where
  /-- An MSI-X message on a vector, with the address and data of its table entry (R382). -/
  | msix (vector : Nat) (addr : Nat) (data : Nat)
  /-- The dwords answered to a register or BAR2 read. -/
  | readData (path : Path) (data : List W32)
  /-- A late completion that the host no longer takes (R39). -/
  | lateData (path : Path) (data : List W32)
  /-- Completer Abort status (R38, R375). -/
  | completerAbort (path : Path)
  /-- Unsupported Request status (R352). -/
  | unsupported (path : Path)
  /-- A BAR2 completion with the EP bit set and all-ones data (R375). -/
  | poisoned (path : Path)
  /-- Bytes of a BAR2 read. -/
  | bar2Data (data : List Byte)
  /-- A new level on an output ball. -/
  | pin (p : Pin) (level : Bool)
  /-- A message on TOD_TX (R409). -/
  | todTx (bytes : List Byte)
  /-- Bytes the device writes to host memory. -/
  | hostWrite (addr : Nat) (data : List Byte)
  /-- A frame sent by a line port; an OTN port sends it in a GFP-F frame (R61). -/
  | lineTx (port : Nat) (frame : List Byte)
  /-- The overhead of an OTUCn frame that an OTN port sends, with its SM and PM BIP-8 bytes (R61 to R63, R71). -/
  | otnTx (port : Nat) (oh : OtnSend) (smBip pmBip : Byte)
  /-- Idle or fault signal blocks a port sends in place of frames (R71). -/
  | lineSignal (port : Nat) (code : Nat)
  /-- A lane's test generator sends a pattern, or no longer does (R77). -/
  | lanePattern (lane : Nat) (pattern : Option Nat)
  /-- A fabric lane frame: lane and the 680 ten-bit symbols of its two codewords (R276). -/
  | fabTx (lane : Nat) (symbols : List Nat)
  /-- A twin-link lane frame: lane and the 680 ten-bit symbols of its two codewords (R276, R308). -/
  | twinTx (lane : Nat) (symbols : List Nat)
  /-- A vote window of the FD to QD (0) or QD to FD (1) direction, with its live lanes (R303). -/
  | voteWindow (dir : Nat) (lanes : List Nat) (words : List W64)
  /-- A frame the resident services hand to their inject ring. -/
  | resident (ring : Nat) (frame : List Byte)
  /-- The test access port shifts out its IDCODE (R419). -/
  | jtagId (w : W32)
  /-- The test access port takes the balls, or gives them back (R419). -/
  | scanBalls (taken : Bool)
  /-- An SMBus NACK (R377). -/
  | smbusNack
  deriving DecidableEq, Repr

end Sys2Proof
end

