-- ==== Sys2Proof/Syntax.lean ====
section
/-! DEFINITION. The commands of the GKP256: one constructor per row of spec/opcode_table.json. -/
namespace Sys2Proof

/-- A command, operation or event of the block (spec/opcode_table.json). -/
inductive Instr where
  /-- REGISTER_WRITE (R7): A host or firmware write to a register that has no row of its own applies each field under its
  access type, ignores reserved bits and refused values, and sets the block's CFG_ERR where a rule refuses the write. -/
  | registerWrite (path : Path) (space : Space) (addr : W32) (bytesOk : Bool) (data : List W32)
  /-- RC_FIELD_READ (R7): A read of a register with RC fields returns their values and then clears each field to zero or to
  its restart value, keeping any event of the same cycle. -/
  | rcFieldRead (path : Path) (addr : W32) (bytesOk : Bool) (dwords : Nat)
  /-- LOW_WORD_READ (R9): A read of the low word of a 64-bit register returns it and latches the high word for the following
  high-word read. -/
  | lowWordRead (path : Path) (addr : W32) (bytesOk : Bool) (dwords : Nat)
  /-- HELD_ACCESS_EXECUTE (R39): A register access that waited for a stopped clock or a CORE reset executes when the clock
  returns or the group is released, and a late read completion is discarded. -/
  | heldAccessExecute (die : Die)
  /-- PICA_BOUNDARY (R25): FD starts a new 16 ns pica, advances the pica number and opens every per-pica share of Table 2-1.
  -/
  | picaBoundary
  /-- PICA_MARK (R31): QD or TD receives a pica mark, aligns its local pica and, when the low byte disagrees, reloads its
  copy, counts a slip and raises PICA_SLIP. -/
  | picaMark (die : MarkDie) (low : Byte)
  /-- WHOLE_SECOND (R43): The time base reaches a whole second and applies a pending TIM_INCR or SEC write; `pcs` is what each
  line port's PCS and FEC counted since, nothing if not said. -/
  | wholeSecond (pcs : List PcsCounts := [])
  /-- PPS_OUT_FALL (R47): PPS_OUT falls when PPS_WIDTH has passed since its rise. -/
  | ppsOutFall
  /-- PPS_EDGE (R45): A PPS_IN rising edge is measured against the time base, the seconds of the last valid ToD message are
  loaded, and LOCK is set or cleared. -/
  | ppsEdge
  /-- PPS_TIMEOUT (R45): No PPS edge arrives within 1.5 s, so LOCK clears and PPS_MISSING is raised. -/
  | ppsTimeout
  /-- TOD_MESSAGE (R44): A ToD message on TOD_RX is accepted as valid when its timing and checksum pass, or raises TOD_BAD. -/
  | todMessage (msSinceEdge : Nat) (bytes : List Byte)
  /-- TOD_TX_SEND (R409): 500 ms after a PPS_OUT rise, TOD_TX sends the seconds of the next PPS_OUT edge. -/
  | todTxSend
  /-- TIM_ADJ (R43): A write of TIM_ADJ steps the time base phase at the next nclk edge. -/
  | timAdj (path : Path) (step : W32)
  /-- TIM_TOD_NS_READ (R53): A read of TIM_TOD.NS latches both seconds words for the following reads. -/
  | timTodNsRead (path : Path)
  /-- PORST_N_LOW (R40): PORST_N low or power-on resets the whole package. -/
  | porstNLow (ns : Nat)
  /-- PORST_N_RELEASE (R336): PORST_N is released: fuses are sensed, the management PLLs lock and mcore0 starts its boot ROM
  with the CORE group held. -/
  | porstNRelease (testMode : Bool)
  /-- PLL_LOCK (R336): The ROM finds the references present and the PLLs locked, or stops with error 0x10, then reads the boot
  records and releases the CORE group. -/
  | pllLock (locked : Bool)
  /-- SYS_RST_N_LOW (R40): SYS_RST_N low resets the CORE and MGMT groups. -/
  | sysRstNLow (ns : Nat)
  /-- SYS_RST_N_RELEASE (R40): SYS_RST_N is released and the CORE and MGMT groups restart. -/
  | sysRstNRelease
  /-- PERST_N_LOW (R350): PERST_N low resets the HOST group, disabling host queues, rings and DMA channels and closing the
  PCIe session. -/
  | perstNLow (ns : Nat)
  /-- PERST_N_RELEASE (R410): PERST_N is released and PCIe link training starts, after step 1 of start-up has ended. -/
  | perstNRelease
  /-- PCIE_HOT_RESET (R40): A PCIe hot reset or link down resets the HOST group with the effects of a function level reset. -/
  | pcieHotReset
  /-- FUNCTION_LEVEL_RESET (R350): A function level reset disables every host queue, ring and DMA channel, closes the PCIe
  session and resets MSI-X state. -/
  | functionLevelReset
  /-- CORE_RESET (R302): A write of MGT_CTRL.CORE_RESET asserts the MGT core reset request, or releases a held CORE group. -/
  | coreReset (path : Path)
  /-- MGMT_RESET (R40): A write of MGT_CTRL.MGMT_RESET asserts the MGT management and core reset requests together. -/
  | mgmtReset (path : Path)
  /-- RESET_FLUSH_DONE (R392): Before a CORE reset by the MGT requests, every statistics accumulator has been flushed, the
  frames inside are counted and the group enters reset. -/
  | resetFlushDone
  /-- CORE_RESET_RELEASE (R41): The CORE group is released: RESET_EPOCH is incremented, the pica number restarts at 0 and
  every block starts its clearing. -/
  | coreResetRelease
  /-- CRY_ZERO_DONE (R100): The SA region, SA cache and RX SC CAM have been zeroed and ZERO_DONE sets. -/
  | cryZeroDone
  /-- XMT_CLEAR_DONE (R143): Both exact-match stores and CAMs have been written free and CLEAR_DONE sets. -/
  | xmtClearDone
  /-- TRN_CLEAR_DONE (R169): The ternary array, shadow and result memory have been cleared and CLEAR_DONE sets; `bad` are the
  search ports that failed their test. -/
  | trnClearDone (bad : List (BitVec 4) := [])
  /-- HBM_STARTUP_DONE (R243): Stack training, test and zeroing end and READY sets, or start-up stops with CAPACITY_MISMATCH
  or TRAIN_FAIL. -/
  | hbmStartupDone (h0 h1 h2 h3 : HbmStart)
  /-- IMAGE_DIGEST_DONE (R332): The image has been streamed into its working copy and its digest compared; on a match mcore0
  runs it and loads mcore1 to mcore3. -/
  | imageDigestDone (fuseOk : Bool)
  /-- STORE_READ_DONE (R338): A configuration store copy has been read and checked; mcore0 chooses it, or runs without a
  store, and applies its first sections. -/
  | storeReadDone (dev : StoreDevice) (items : List LoadItem)
  /-- STORE_APPLY_RESUME (R336): Once the clearing blocks report done, mcore0 applies the remaining store sections, sets
  CFG_LOCK and enables the ports. -/
  | storeApplyResume (items : List LoadItem) (ports : List (BitVec 7))
  /-- LINE_FRAME_RECEIVE (R60): A port's receive MAC takes a whole frame, timestamps it, checks it and passes it through
  ingress link crypto to the slice ingress FIFO or drops it. -/
  | lineFrameReceive (port : BitVec 7) (frame : List Byte) (cut : Bool) (gfp : GfpInfo)
  /-- ALIGN_PATTERN (R64): An alignment machine evaluates a pattern position, opening, advancing or removing candidates,
  locking at N repeats or losing lock after M errors. -/
  | alignPattern (group : AlignGroup) (lane : BitVec 8) (position : Nat) (hit : Bool)
  /-- OTN_FRAME_RECEIVE (R62): An OTN port takes a frame's overhead, checking MFAS, BIP-8, BDI, STAT, TTI and payload type
  acceptance. -/
  | otnFrameReceive (port : BitVec 7) (oh : OtnOverhead)
  /-- GFP_CORE_HEADER (R67): GFP-F delineation checks a core header cHEC and moves among HUNT, PRESYNC and SYNC. -/
  | gfpCoreHeader (port : BitVec 7) (chec : Chec)
  /-- DEFECT_CHANGE (R69): A port defect's raw state changes, updating reported and sticky states, LINK_UP, consequent actions
  and event LNE_DEFECT. -/
  | defectChange (port : BitVec 7) (defect : Fin 21) (raw : Bool)
  /-- DEFECT_TIMER (R69): A timed defect condition such as 2 µs of signal loss or 3 s without CSF frames expires and declares
  or clears its defect. -/
  | defectTimer (port : BitVec 7) (defect : Fin 21) (present : Bool)
  /-- PORT_ENABLE (R56): A write of LNE_PORT_CFG setting EN enables a port in its mode when the mix stays legal. -/
  | portEnable (path : Path) (port : BitVec 7) (value : W32)
  /-- PORT_DISABLE (R58): A write clearing EN disables a port, truncating its receive frame and finishing its transmit frame.
  -/
  | portDisable (path : Path) (port : BitVec 7) (value : W32)
  /-- PORT_RESTART (R66): A write of LNE_PORT_CTRL.RESTART re-runs alignment on an enabled port and truncates frames in
  progress. -/
  | portRestart (path : Path) (port : BitVec 7) (value : W32)
  /-- LNE_TX_TS_READ (R51): A read of LNE_TX_TS's low word removes and latches the oldest two-step timestamp, or latches zero
  when none. -/
  | lneTxTsRead (path : Path) (port : BitVec 7)
  /-- SA_CACHE_FILL (R88): An SA fetched from HBM enters the SA cache, evicting and writing back an unpinned entry, and
  releases the ESP frames that waited for it. -/
  | saCacheFill (sa : BitVec 18) (bad : Bool)
  /-- ESP_INBOUND (R94): An ESP frame is decrypted and checked, the replay unit updates its SA window, and the inner packet is
  restored or dropped. -/
  | espInbound (slice : Fin 8)
  /-- CRY_SA_SWITCH (R91): A write of CRY_SA_SWITCH switches a TX SA to its valid successor, or is ignored without one. -/
  | crySaSwitch (path : Path) (value : W32)
  /-- CRY_NOTICE_READ (R105): A read of CRY_NOTICE that returns VALID removes the oldest PN notice from the FIFO. -/
  | cryNoticeRead (path : Path)
  /-- MKPDU_RECEIVE (R95): The resident MKA service takes an MKA PDU steered from a port and updates its key agreement state.
  -/
  | mkpduReceive (port : BitVec 7) (pdu : MkPdu) (rxSa txSa : BitVec 18)
  /-- MKA_HELLO_TIMER (R95): The 2 s MKA hello time expires and the service sends an MKA PDU on the port. -/
  | mkaHelloTimer (port : BitVec 7) (rxSa txSa : BitVec 18)
  /-- MKA_LIFE_EXPIRY (R95): The 6 s MKA life time of the live peer expires and the port becomes unsecured. -/
  | mkaLifeExpiry (port : BitVec 7)
  /-- SAK_LIFETIME_EXPIRY (R97): The SAK lifetime named in the store expires and the MKA service starts a rekey. -/
  | sakLifetimeExpiry (port : BitVec 7)
  /-- MKA_OLD_SA_EXPIRY (R97): 6 s after a TX switch, the MKA service deletes the old RX SA. -/
  | mkaOldSaExpiry (port : BitVec 7)
  /-- MKA_PN_CHECK (R105): Once a second the MKA service checks NEXT_PN of every MACsec TX SA and rekeys those past LIMIT. -/
  | mkaPnCheck
  /-- HEAD_ADMIT (R172): A head leaves the ingress FIFO when a thread and reorder entry are free, takes a thread and is
  parsed, pattern-matched and searched. -/
  | headAdmit (slice : Fin 8)
  /-- CLASSIFY (R119): With both search results landed, the classifier resolves one action word and drops, forwards, copies or
  mirrors the frame. -/
  | classify (thread : BitVec 12)
  /-- THREAD_LOADED (R174): 12 cycles after classification, the window, metadata and ingress record are loaded and the thread
  becomes READY at its entry. -/
  | threadLoaded (thread : BitVec 12)
  /-- PRS_COMMIT (R115): A write of a slice mask to PRS_COMMIT starts checking the inactive banks, or is ignored while a
  commit is pending. -/
  | prsCommit (path : Path) (value : W32)
  /-- PRS_COMMIT_END (R115): The parse bank check ends and the banks of all masked slices swap at a pica boundary, or the
  commit is refused. -/
  | prsCommitEnd
  /-- EXACT_MATCH_LOOKUP (R130): A store serves a lookup from its request queue, reads both buckets and the CAM, touches the
  hit entry and returns HIT, MISS or ERROR. -/
  | exactMatchLookup (far : Bool) (bad : List (Fin 8))
  /-- LEARN_APPLY (R138): The update engine applies a learn request as an insert, a move or a static conflict. -/
  | learnApply (far : Bool)
  /-- AGEING_TICK (R140): A table's ageing tick expires and its NOW advances. -/
  | ageingTick (table : BitVec 4)
  /-- SWEEPER_VISIT (R141): A sweeper visits one bucket of the lowest eligible table, scrubs its entries, ages them and queues
  removals. -/
  | sweeperVisit (far : Bool) (bad : List (Fin 4))
  /-- SWEEPER_REMOVAL (R141): A queued removal reaches the head of the update FIFO and deletes the entry if it still meets its
  condition. -/
  | sweeperRemoval (far : Bool)
  /-- TABLE_DISABLE (R125): A write clearing EN of an exact-match table starts freeing all its entries as one update
  operation. -/
  | tableDisable (path : Path) (table : BitVec 4) (value : W32)
  /-- TABLE_FREE_DONE (R125): Freeing of a disabled table's entries ends and its ENTRIES reads 0. -/
  | tableFreeDone (table : BitVec 4)
  /-- LEARN_NOTICE_FORWARD (R367): mcore2 takes a notice from the learning notice ring and posts it to the notice CQ, or
  discards it when that CQ is full. -/
  | learnNoticeForward
  /-- FENCE_DONE (R145): No frame older than a fence's issue pica remains inside, so DONE advances and XMT_FENCE_DONE is
  raised. -/
  | fenceDone
  /-- FENCE_SLOW (R146): The oldest outstanding fence has waited longer than XMT_FENCE_WARN.US and XMT_FENCE_SLOW is raised.
  -/
  | fenceSlow
  /-- TD_SEARCH (R152): A TD search port runs a queued search over the facet-selected blocks, verifies the hit and returns
  HIT, MISS or ERROR. -/
  | tdSearch (port : BitVec 4) (fault : TdFaults)
  /-- TD_SCRUB_ROW (R167): The scrubber compares one array row with the shadow and rewrites it if it differs. -/
  | tdScrubRow (upsets : List TdUpset)
  /-- RUN_MOVE (R163): A write of TRN_MOVE_CTRL with START starts a run move of raw table rows, or refuses it. -/
  | runMove (path : Path) (value : W32)
  /-- RUN_MOVE_END (R163): A run move completes or stops at a facet mismatch and reports CODE and MOVED. -/
  | runMoveEnd
  /-- TD_PORT_RETIRE (R168): A write of TRN_PORT_RETIRE retires the named search ports. -/
  | tdPortRetire (path : Path) (value : W32)
  /-- ENGINE_NOP (R183): Opcode 0x00 does nothing. -/
  | engineNop (q : Issue)
  /-- ADD (R183): rd := rs1 + rs2. -/
  | add (q : Issue) (rd rs1 rs2 : BitVec 5)
  /-- SUB (R183): rd := rs1 - rs2. -/
  | sub (q : Issue) (rd rs1 rs2 : BitVec 5)
  /-- AND (R183): rd := rs1 and rs2. -/
  | and (q : Issue) (rd rs1 rs2 : BitVec 5)
  /-- OR (R183): rd := rs1 or rs2. -/
  | or (q : Issue) (rd rs1 rs2 : BitVec 5)
  /-- XOR (R183): rd := rs1 xor rs2. -/
  | xor (q : Issue) (rd rs1 rs2 : BitVec 5)
  /-- SHL (R183): rd := rs1 shifted left by rs2[5:0]. -/
  | shl (q : Issue) (rd rs1 rs2 : BitVec 5)
  /-- SHR (R183): rd := rs1 shifted logically right by rs2[5:0]. -/
  | shr (q : Issue) (rd rs1 rs2 : BitVec 5)
  /-- SAR (R183): rd := rs1 shifted arithmetically right by rs2[5:0]. -/
  | sar (q : Issue) (rd rs1 rs2 : BitVec 5)
  /-- MUL (R183): rd := low 64 bits of rs1 times rs2. -/
  | mul (q : Issue) (rd rs1 rs2 : BitVec 5)
  /-- SLT (R183): rd := 1 if rs1 < rs2 signed, else 0. -/
  | slt (q : Issue) (rd rs1 rs2 : BitVec 5)
  /-- SLTU (R183): rd := 1 if rs1 < rs2 unsigned, else 0. -/
  | sltu (q : Issue) (rd rs1 rs2 : BitVec 5)
  /-- SEQ (R183): rd := 1 if rs1 = rs2, else 0. -/
  | seq (q : Issue) (rd rs1 rs2 : BitVec 5)
  /-- CMOV (R183): rd := rs1 if rs2 is not zero. -/
  | cmov (q : Issue) (rd rs1 rs2 : BitVec 5)
  /-- CSUM (R183): rd := 16-bit ones'-complement sum of rs1 and rs2 low halves. -/
  | csum (q : Issue) (rd rs1 rs2 : BitVec 5)
  /-- CRC (R183): rd := CRC-32C of rs1's 8 bytes with initial value rs2[31:0]. -/
  | crc (q : Issue) (rd rs1 rs2 : BitVec 5)
  /-- ADDI (R183): rd := rs1 + sign-extended imm16. -/
  | addi (q : Issue) (rd rs1 : BitVec 5) (imm : W16)
  /-- ANDI (R183): rd := rs1 and zero-extended imm16. -/
  | andi (q : Issue) (rd rs1 : BitVec 5) (imm : W16)
  /-- ORI (R183): rd := rs1 or zero-extended imm16. -/
  | ori (q : Issue) (rd rs1 : BitVec 5) (imm : W16)
  /-- XORI (R183): rd := rs1 xor zero-extended imm16. -/
  | xori (q : Issue) (rd rs1 : BitVec 5) (imm : W16)
  /-- SHLI (R183): rd := rs1 shifted left by imm16[5:0]. -/
  | shli (q : Issue) (rd rs1 : BitVec 5) (imm : W16)
  /-- SHRI (R183): rd := rs1 shifted logically right by imm16[5:0]. -/
  | shri (q : Issue) (rd rs1 : BitVec 5) (imm : W16)
  /-- SARI (R183): rd := rs1 shifted arithmetically right by imm16[5:0]. -/
  | sari (q : Issue) (rd rs1 : BitVec 5) (imm : W16)
  /-- MOVI (R183): rd := sign-extended imm16. -/
  | movi (q : Issue) (rd : BitVec 5) (imm : W16)
  /-- LIH (R183): Writes imm16 into one 16-bit quarter of rd chosen by rs1 field [1:0]. -/
  | lih (q : Issue) (rd rs1 : BitVec 5) (imm : W16)
  /-- SLTI (R183): rd := 1 if rs1 < sign-extended imm16 signed, else 0. -/
  | slti (q : Issue) (rd rs1 : BitVec 5) (imm : W16)
  /-- SEQI (R183): rd := 1 if rs1 equals sign-extended imm16, else 0. -/
  | seqi (q : Issue) (rd rs1 : BitVec 5) (imm : W16)
  /-- EXT (R183): rd := the zero-extended bit field of rs1 at POS and LENM1. -/
  | ext (q : Issue) (rd rs1 : BitVec 5) (pos lenm1 : BitVec 6)
  /-- INS (R183): Writes rs1's low bits into the bit field of rd at POS and LENM1. -/
  | ins (q : Issue) (rd rs1 : BitVec 5) (pos lenm1 : BitVec 6)
  /-- LD8 (R176): Loads 1 byte at rs1 + off16 into rd, zero-extended, or faults. -/
  | ld8 (q : Issue) (rd rs1 : BitVec 5) (off : W16)
  /-- LD16 (R176): Loads 2 bytes at rs1 + off16 into rd, big-endian, or faults. -/
  | ld16 (q : Issue) (rd rs1 : BitVec 5) (off : W16)
  /-- LD32 (R176): Loads 4 bytes at rs1 + off16 into rd, big-endian, or faults. -/
  | ld32 (q : Issue) (rd rs1 : BitVec 5) (off : W16)
  /-- LD64 (R176): Loads 8 bytes at rs1 + off16 into rd, big-endian, or faults. -/
  | ld64 (q : Issue) (rd rs1 : BitVec 5) (off : W16)
  /-- ST8 (R176): Stores rd's low byte at rs1 + off16, or faults. -/
  | st8 (q : Issue) (rd rs1 : BitVec 5) (off : W16)
  /-- ST16 (R176): Stores rd's low 2 bytes at rs1 + off16, or faults. -/
  | st16 (q : Issue) (rd rs1 : BitVec 5) (off : W16)
  /-- ST32 (R176): Stores rd's low 4 bytes at rs1 + off16, or faults. -/
  | st32 (q : Issue) (rd rs1 : BitVec 5) (off : W16)
  /-- ST64 (R176): Stores rd's 8 bytes at rs1 + off16, or faults. -/
  | st64 (q : Issue) (rd rs1 : BitVec 5) (off : W16)
  /-- HINS (R188): Inserts imm16 zero bytes at window offset rs1 and updates LENGTH, or faults EDIT. -/
  | hins (q : Issue) (rs1 : BitVec 5) (imm : W16)
  /-- HDEL (R188): Removes imm16 bytes at window offset rs1 and updates LENGTH, or faults EDIT. -/
  | hdel (q : Issue) (rs1 : BitVec 5) (imm : W16)
  /-- ATADD (R183): Atomically adds rs2 to a word of local cluster memory and returns the old word in rd. -/
  | atadd (q : Issue) (rd rs1 rs2 : BitVec 5)
  /-- DOM (R191): Declares the packet's order domain as rs1[15:0]; a second DOM is ignored. -/
  | dom (q : Issue) (rs1 : BitVec 5)
  /-- CPY (R190): Commits one copy of the frame as edited to a punt ring with a reason, within the copy cap. -/
  | cpy (q : Issue) (ring : BitVec 4) (reason : BitVec 10)
  /-- MIRR (R190): Commits one copy of the frame as edited through a mirror session, subject to sampling and the copy cap. -/
  | mirr (q : Issue) (session : BitVec 6)
  /-- CNTA (R184): Posts a statistics update of one packet and rs2 bytes to flow counter rs1. -/
  | cnta (q : Issue) (rs1 rs2 : BitVec 5)
  /-- BEQ (R183): Branches when rs1 = rs2. -/
  | beq (q : Issue) (rs1 rs2 : BitVec 5) (off : W16)
  /-- BNE (R183): Branches when rs1 differs from rs2. -/
  | bne (q : Issue) (rs1 rs2 : BitVec 5) (off : W16)
  /-- BLT (R183): Branches when rs1 < rs2 signed. -/
  | blt (q : Issue) (rs1 rs2 : BitVec 5) (off : W16)
  /-- BGE (R183): Branches when rs1 >= rs2 signed. -/
  | bge (q : Issue) (rs1 rs2 : BitVec 5) (off : W16)
  /-- BLTU (R183): Branches when rs1 < rs2 unsigned. -/
  | bltu (q : Issue) (rs1 rs2 : BitVec 5) (off : W16)
  /-- BGEU (R183): Branches when rs1 >= rs2 unsigned. -/
  | bgeu (q : Issue) (rs1 rs2 : BitVec 5) (off : W16)
  /-- JMP (R183): PC := PC + off26. -/
  | jmp (q : Issue) (off : BitVec 26)
  /-- CALL (R181): w31 := PC + 1 and PC := PC + off26. -/
  | call (q : Issue) (off : BitVec 26)
  /-- JR (R183): PC := rs1[15:0]. -/
  | jr (q : Issue) (rs1 : BitVec 5)
  /-- PUNT (R189): Ends the packet and places the edited frame in a punt ring with a reason. -/
  | punt (q : Issue) (ring : BitVec 4) (reason : BitVec 10)
  /-- LKX (R185): Issues an exact-match lookup with its key registers and makes rd pending. -/
  | lkx (q : Issue) (rd rs1 : BitVec 5) (table : BitVec 4) (touch learn : Bool)
  /-- LKT (R186): Issues a TD search with its key registers and makes rd and rd + 1 pending, or faults KEY_REG. -/
  | lkt (q : Issue) (rd rs1 : BitVec 5) (table : BitVec 6) (width : BitVec 2)
  /-- WAIT (R173): The thread sleeps until it has no lookup outstanding. -/
  | wait (q : Issue)
  /-- RDC (R201): rd := the special value of Table 8-8 named by imm16[7:0]. -/
  | rdc (q : Issue) (rd : BitVec 5) (sel : Byte)
  /-- SEND (R189): Ends the packet and hands its descriptor and edited frame to the reorder buffer, declaring its order
  domain. -/
  | send (q : Issue)
  /-- DROP (R189): Ends the packet and drops it under its reason, ENG_DROP when 0 or unavailable. -/
  | drop (q : Issue) (reason : BitVec 10)
  /-- LOOKUP_RESPONSE (R187): A lookup or search response lands in the thread's pending registers and wakes a sleeping thread,
  or is discarded if the packet ended. -/
  | lookupResponse (thread : BitVec 12)
  /-- DEADLINE_EXPIRY (R193): A packet not ended by pica A + D - 1 is stopped and dropped under ENG_OVERRUN. -/
  | deadlineExpiry (thread : BitVec 12)
  /-- THREAD_FREE (R173): 8 cycles after a thread ends, it becomes FREE. -/
  | threadFree (thread : BitVec 12)
  /-- ROB_RELEASE (R192): Each pica a slice releases up to 32 releasable packets, oldest first, toward QD and frees entries of
  packets ended without output. -/
  | robRelease (slice : Fin 8)
  /-- VOTE_WINDOW_RECEIVE (R304): The receiving die gathers the copies of a window, votes, counts disagreements and accepts
  the window or requests replay. -/
  | voteWindowReceive (dir : Fin 2) (copies : List (Option (List W64)))
  /-- AUTO_RESTART (R302): 100 ms after a fatal fault with AUTO_RESTART set, mcore0 releases the CORE group, or keeps it held
  at the fourth fault in 600 s. -/
  | autoRestart
  /-- TPL_RETIRE (R306): A write of TPL_RETIRE retires Triplet lanes unless fewer than two would remain. -/
  | tplRetire (path : Path) (value : W32)
  /-- PPE_COMMIT (R196): A write of PPE_COMMIT checks the inactive program banks of the named slices. -/
  | ppeCommit (path : Path) (value : W32)
  /-- PPE_COMMIT_SWAP (R196): The program banks of the named slices swap at a pica boundary, or the commit is refused. -/
  | ppeCommitSwap
  /-- PPE_RETIRE (R195): A write of PPE_RETIRE retires an engine and drops its running packets under ENG_HW_ERR. -/
  | ppeRetire (path : Path) (value : W32)
  /-- PERF_COUNTER_WRAP (R199): A performance counter wraps, sets OVF, raises PPE_PC_OVF and records a sample when SAMPLE is
  set. -/
  | perfCounterWrap (cluster : BitVec 5) (counter : Fin 9) (engine : BitVec 4) (thread : BitVec 3) (pc : W16)
  /-- PC_FREEZE (R202): A write of FREEZE stops or restarts every performance counter at the next pica boundary. -/
  | pcFreeze (path : Path) (value : W32)
  /-- PC_SNAPSHOT (R202): A write of SNAPSHOT copies every performance counter into PPE_PC_SNAP at the next pica boundary. -/
  | pcSnapshot (path : Path) (value : W32)
  /-- PC_SAMPLE_READ (R200): A read of PPE_PC_SAMPLE that returns VALID removes the sample and latches its high word. -/
  | pcSampleRead (path : Path) (cluster : BitVec 5)
  /-- DESCRIPTOR_GROUP_ARRIVAL (R213): A descriptor group arrives at the buffer manager and is paired with its data by
  transfer tag. -/
  | descriptorGroupArrival (slice : Fin 8)
  /-- FRAME_DATA_ARRIVAL (R212): A frame's data arrives on the slice channel and is stored as head and body chains. -/
  | frameDataArrival (slice : Fin 8)
  /-- PAIR_TIMEOUT (R213): A tag unpaired for 64 picas is dropped under BUF_PAIR_LOST. -/
  | pairTimeout (slice : Fin 8)
  /-- QUEUE_ADMIT (R252): The queue manager admits an arrival to its queue, polices it, checks limits and sends it on die or
  to the spill path. -/
  | queueAdmit
  /-- MC_REPLICATE (R256): The replicator reads a group and enqueues one replica per valid member, raising owner counts first.
  -/
  | mcReplicate
  /-- BUNDLE_WRITE (R218): A full open bundle is written to HBM and the spilled frames release their on-die references. -/
  | bundleWrite
  /-- BUNDLE_RESTORE (R220): A restored bundle's frames are written into on-die buffers and the bundle is freed. -/
  | bundleRestore (qid : BitVec 20) (bad : List Nat)
  /-- RESTORE_RETRY (R220): A restore that failed to allocate retries in the next pica. -/
  | restoreRetry (qid : BitVec 20)
  /-- BUF_BUILD (R207): A write of BUF_CTRL.BUILD checks the pool configuration and starts building free lists, or refuses it.
  -/
  | bufBuild (path : Path) (value : W32)
  /-- BUF_BUILD_DONE (R207): The free lists are built and CFG_DONE sets. -/
  | bufBuildDone
  /-- LOUPE_AUDIT_START (R221): AUDIT_MS after the last start, the Loupe inverts the mark value and starts an audit. -/
  | loupeAuditStart
  /-- LOUPE_STEP (R221): The Loupe walks or sweeps up to 64 entries, marking held buffers and reporting or reclaiming leaked
  ones. -/
  | loupeStep
  /-- LOUPE_AUDIT_END (R222): An audit ends and the free list and bundle counts are compared and mismatches reported. -/
  | loupeAuditEnd
  /-- LOUPE_REPORT_READ (R223): A read of BUF_LOUPE_REPORT's low word that returns VALID removes the report and latches its
  high word. -/
  | loupeReportRead (path : Path)
  /-- HBM_READ_COMPLETE (R234): An HBM read returns, corrected or poisoned, to its requester, counting errors toward
  retirement. -/
  | hbmReadComplete (la : BitVec 36) (bytes : Nat) (cls : Fin 7) (res : HbmRes)
  /-- HBM_CMD_PARITY (R236): A stack reports a command parity error and the controller re-issues the unconfirmed commands. -/
  | hbmCmdParity (stack : Fin 4) (pch : BitVec 5) (cls : Fin 7)
  /-- HBM_RETIRE (R237): A write of HBM_RETIRE starts retiring a pseudo-channel to the spare, or sets NO_SPARE. -/
  | hbmRetire (path : Path) (value : W32)
  /-- MIGRATION_BLOCK_COPY (R238): One 1 KiB block is copied to the spare and the migration pointer advances, completing the
  migration at the last block; `bad` bursts came back uncorrectable, `fixed` ones corrected. -/
  | migrationBlockCopy (stack : Fin 4) (bad : List (BitVec 5)) (fixed : List (BitVec 5) := [])
  /-- REFRESH (R240): A bank's refresh interval expires and the controller refreshes it. -/
  | refresh (stack : Fin 4) (temp : Byte) (double : Bool)
  /-- PATROL_SCRUB (R241): Patrol scrub reads a burst, corrects and writes back or marks it poisoned. -/
  | patrolScrub (res : HbmRes)
  /-- PCH_IDLE_TIMEOUT (R242): A pseudo-channel idle for IDLE_US enters power-down. -/
  | pchIdleTimeout (stack : Fin 4) (pch : BitVec 5)
  /-- DEQUEUE_SELECT (R263): An L0 node takes its turn and the hierarchy selects a frame by tier, priority and DWRR, charging
  its accounted length. -/
  | dequeueSelect (node : BitVec 8) (badLink : Option (BitVec 24))
  /-- SHAPER_REFILL (R266): At its level's period a node refills its C and P buckets up to their bursts. -/
  | shaperRefill (level : Fin 4) (node : BitVec 18)
  /-- QUEUE_FLUSH (R251): A write of QUE_FLUSH starts dropping every frame the queue holds under QUE_FLUSH. -/
  | queueFlush (path : Path) (value : W32)
  /-- QUEUE_FLUSH_DONE (R251): A flush ends and FLUSH_BUSY clears. -/
  | queueFlushDone
  /-- GALLEY_ENABLE (R270): A write setting a Galley's EN schedules its first aligned start and holds GAP_GATES until then. -/
  | galleyEnable (path : Path) (port : BitVec 7) (value : W32)
  /-- GALLEY_SWITCH (R270): A write of SWITCH schedules a valid inactive bank to start, or is refused. -/
  | galleySwitch (path : Path) (port : BitVec 7) (value : W32)
  /-- GALLEY_INTERVAL_END (R269): A gate control entry's interval expires and the next entry's gates apply. -/
  | galleyIntervalEnd (port : BitVec 7)
  /-- GALLEY_CYCLE_START (R270): A Galley cycle or bank starts at its aligned start, switching or realigning banks. -/
  | galleyCycleStart (port : BitVec 7)
  /-- EGRESS_EDIT (R52): The egress editor takes a scheduled frame, applies its adjacency, R-TAG and one-step stamp, and
  applies egress encryption. -/
  | egressEdit (slice : Fin 8)
  /-- LINE_FRAME_TRANSMIT (R72): A port frames and sends a frame, or drops it when the port cannot send, recording a two-step
  timestamp when asked. -/
  | lineFrameTransmit (port : BitVec 7)
  /-- DISPATCH (R288): Each pica the dispatcher matches active bundles to free link-group slots in three iterations. -/
  | dispatch
  /-- FABRIC_LANE_FRAME_SEND (R276): A fabric lane sends a lane frame carrying three cells with SEQ assigned. -/
  | fabricLaneFrameSend (lane : BitVec 8)
  /-- FABRIC_LANE_FRAME_RECEIVE (R277): A fabric lane receives a lane frame, decodes its codewords, checks its CRC and
  delivers its cells. -/
  | fabricLaneFrameReceive (lane : BitVec 8) (frame : LaneFrame (List Byte))
  /-- CREDIT_GENERATE (R287): A line port's credit generator accumulates CREDIT_BYTES and sends one grant to a chosen VOQ. -/
  | creditGenerate (port : BitVec 7)
  /-- ON_REFRESH (R286): REFRESH_US passes with a VOQ ON and no grant, so the VOQ sends ON again. -/
  | onRefresh (voq : BitVec 20)
  /-- REASSEMBLY_TIMEOUT (R290): A reassembly gap lasts TIMEOUT_US and the records spanning it are dropped. -/
  | reassemblyTimeout (src : BitVec 11) (tc : BitVec 3)
  /-- REASSEMBLY_COMPLETE (R291): A rebuilt frame is stored in on-die buffers and enqueued or replicated, or waits for
  buffers. -/
  | reassemblyComplete
  /-- FAB_LANE_RETIRE (R279): A write of FAB_LANE_RETIRE retires a fabric lane. -/
  | fabLaneRetire (path : Path) (value : W32)
  /-- TWIN_LANE_FRAME_RECEIVE (R308): A twin-link lane receives a lane frame and delivers its hello and mirror cells. -/
  | twinLaneFrameReceive (lane : Fin 2) (frame : LaneFrame TwinCell)
  /-- HELLO_SEND (R309): Every 16 picas a member sends a hello on each live twin-link lane. -/
  | helloSend
  /-- MIRROR_RESEND_TIMEOUT (R309): No acknowledgement has advanced for 20 µs and unacknowledged mirror cells are resent. -/
  | mirrorResendTimeout
  /-- TWIN_LINK_TIMEOUT (R310): 100 µs pass with no accepted hello and the twin link goes down. -/
  | twinLinkTimeout
  /-- SNAPSHOT_WALK_STEP (R312): The principal walks its next exact-match buckets and CAM entries and queues snapshot records.
  -/
  | snapshotWalkStep
  /-- RED_TWIN_RETIRE (R308): A write of RED_TWIN_RETIRE retires a twin-link lane. -/
  | redTwinRetire (path : Path) (value : W32)
  /-- ARB_ROLE_CHANGE (R319): ARB_ROLE has been stable at a new level for 100 µs and the member demotes or starts waiting to
  promote. -/
  | arbRoleChange (high : Bool)
  /-- PROMOTION (R322): After ROLE_DOWN, twin link down or 1 ms, a member becomes principal and starts singular functions. -/
  | promotion (waited : Bool)
  /-- ARB_HEALTH_TOGGLE (R319): Every 1 ms ARB_HEALTH toggles while the member is healthy. -/
  | arbHealthToggle (answers : Bool)
  /-- PROOF_WATCHDOG_EXPIRY (R343): The proof window expires and the device takes a PKG reset to fall back. -/
  | proofWatchdogExpiry
  /-- HEALTH_CONFIRMED (R344): Every health condition has held for CONFIRM_S and the image is confirmed. -/
  | healthConfirmed (fuseOk : Bool)
  /-- CONFIRM (R344): A write of MGT_CTRL.CONFIRM records host confirmation of the Proof image. -/
  | confirm (path : Path)
  /-- REJECT (R346): A write of MGT_CTRL.REJECT falls back from Proof. -/
  | reject (path : Path)
  /-- FLASH_OP_DONE (R327): A flash program or erase completes and the command that waited for it completes. -/
  | flashOpDone (good : Bool)
  /-- WQ_DOORBELL (R358): A write of a work queue's PI makes new entries available to fetch. -/
  | wqDoorbell (path : Path) (wq : BitVec 6) (value : W32)
  /-- WQ_ENTRY_FETCH (R361): The device fetches a work queue entry into its cache and checks it, halting on a malformed entry.
  -/
  | wqEntryFetch (wq : BitVec 6) (words : Option (List W64))
  /-- HST_WQ_INVAL (R361): A write of HST_WQ_INVAL discards cached entries at or after the index. -/
  | hstWqInval (path : Path) (wq : BitVec 6) (index : W32)
  /-- WQ_DISABLE (R362): Clearing a WQ's EN completes the executing entry, discards the cache and clears ENABLED. -/
  | wqDisable (path : Path) (wq : BitVec 6) (value : W32)
  /-- CQ_CONSUME (R360): A write of a CQ's CI makes room and waiting work queues resume. -/
  | cqConsume (path : Path) (cq : BitVec 6) (value : W32)
  /-- NOP (R364): Command 0x00 does nothing and completes. -/
  | nop (wq : BitVec 6)
  /-- FENCE (R145): Command FENCE issues a drain fence generation or is refused with FENCE_FULL. -/
  | fence (wq : BitVec 6)
  /-- FENCE_WAIT (R364): Command FENCE_WAIT completes once a given generation is done. -/
  | fenceWait (wq : BitVec 6)
  /-- TBL_WRITE (R365): Command TBL_WRITE writes entries to a table target in index order, ending at the first refused entry.
  -/
  | tblWrite (wq : BitVec 6)
  /-- TBL_READ (R365): Command TBL_READ writes entries of a table target to host memory. -/
  | tblRead (wq : BitVec 6) (hostOk : Bool)
  /-- EM_INSERT (R133): Command EM_INSERT inserts an exact-match entry through the update engine. -/
  | emInsert (wq : BitVec 6)
  /-- EM_UPDATE (R134): Command EM_UPDATE rewrites an entry's result, kind and timestamp. -/
  | emUpdate (wq : BitVec 6)
  /-- EM_DELETE (R134): Command EM_DELETE deletes an entry with promotion from the CAM. -/
  | emDelete (wq : BitVec 6)
  /-- EM_READ (R134): Command EM_READ returns an entry unchanged. -/
  | emRead (wq : BitVec 6)
  /-- TD_ADD (R159): Command TD_ADD places a route or access-list entry in a managed table. -/
  | tdAdd (wq : BitVec 6)
  /-- TD_CHANGE (R160): Command TD_CHANGE updates a managed entry's result in one slot. -/
  | tdChange (wq : BitVec 6)
  /-- TD_DELETE (R160): Command TD_DELETE clears a managed entry's VALID. -/
  | tdDelete (wq : BitVec 6)
  /-- ROW_WRITE (R160): Command ROW_WRITE writes a raw table entry in w + 2 slots. -/
  | rowWrite (wq : BitVec 6)
  /-- ROW_RESULT (R160): Command ROW_RESULT rewrites a raw entry's result in one slot. -/
  | rowResult (wq : BitVec 6)
  /-- ROW_DELETE (R160): Command ROW_DELETE clears a raw entry's VALID. -/
  | rowDelete (wq : BitVec 6)
  /-- ROW_READ (R162): Command ROW_READ passes through the maintenance FIFO and returns a raw entry to the host. -/
  | rowRead (wq : BitVec 6) (hostOk : Bool)
  /-- SA_INSTALL (R87): Command SA_INSTALL unwraps and installs an SA at a free index. -/
  | saInstall (wq : BitVec 6)
  /-- SA_UPDATE (R91): Command SA_UPDATE sets an SA's successor, pin and limit. -/
  | saUpdate (wq : BitVec 6)
  /-- SA_DELETE (R87): Command SA_DELETE deletes an SA and zeroes its key and salt. -/
  | saDelete (wq : BitVec 6)
  /-- SA_READ (R86): Command SA_READ writes an SA entry, key zeroed, to the host. -/
  | saRead (wq : BitVec 6) (hostOk : Bool)
  /-- CAK_LOAD (R99): Command CAK_LOAD unwraps a CAK for a port and stores it in the keyring when PERSIST is set. -/
  | cakLoad (wq : BitVec 6)
  /-- LOAD_ARM (R375): Command LOAD_ARM arms a table load on a DMA channel's pulse. -/
  | loadArm (wq : BitVec 6)
  /-- ARMED_LOAD_APPLY (R375): 2 µs after a channel's pulse, the loader applies the armed entries from HBM, or completes with
  BUS_ERROR where that read is `bad`. -/
  | armedLoadApply (channel : BitVec 4) (bad : Bool := false)
  /-- BFD_SET (R376): Command BFD_SET creates or changes a BFD session within the rate limits. -/
  | bfdSet (wq : BitVec 6)
  /-- BFD_DEL (R376): Command BFD_DEL removes a BFD session. -/
  | bfdDel (wq : BitVec 6)
  /-- IMG_BEGIN (R340): Command IMG_BEGIN opens an update and erases the target's first block. -/
  | imgBegin (wq : BitVec 6)
  /-- IMG_BLOCK (R340): Command IMG_BLOCK programs one 4 KiB block of the update. -/
  | imgBlock (wq : BitVec 6) (data : Option (List Byte))
  /-- IMG_END (R340): Command IMG_END checks the received content and seals a store. -/
  | imgEnd (wq : BitVec 6)
  /-- IMG_START (R342): Command IMG_START writes a Proof boot record and restarts the MGMT and CORE groups. -/
  | imgStart (wq : BitVec 6)
  /-- KEY_SET (R354): Command KEY_SET installs or clears the operator or administrator key. -/
  | keySet (wq : BitVec 6)
  /-- SESSION_OPEN (R355): An OPEN on HST_SESS_CMD closes any session on the path and issues a challenge. -/
  | sessionOpen (path : Path) (admin : Bool)
  /-- SESSION_RESPOND (R355): A RESPOND opens the session at its level when the response matches, or counts a failure. -/
  | sessionRespond (path : Path)
  /-- SESSION_CLOSE (R357): A CLOSE closes the path's session. -/
  | sessionClose (path : Path)
  /-- CHALLENGE_TIMEOUT (R356): A challenge without RESPOND for 10 s fails and locks the path. -/
  | challengeTimeout (path : Path)
  /-- SESSION_LOCK_EXPIRY (R356): The refusal period of a locked path ends. -/
  | sessionLockExpiry (path : Path)
  /-- BAR2_READ (R353): A BAR2 read returns HBM data of an allowed region, zero elsewhere, or poisoned all-ones where the read
  is `bad`. -/
  | bar2Read (offset : BitVec 30) (bytes : Nat) (bad : Bool := false)
  /-- BAR2_WRITE (R353): A BAR2 write reaches the management region at the allowed level, and is ignored elsewhere. -/
  | bar2Write (offset : BitVec 30) (data : List Byte)
  /-- PUNT_RING_WRITE (R368): A frame released by a punt node is written to its punt ring, or dropped when the ring is full or
  disabled. -/
  | puntRingWrite (ring : BitVec 4)
  /-- INJECT_DOORBELL (R369): A write of an inject ring's PI makes new slots available. -/
  | injectDoorbell (path : Path) (ring : BitVec 4) (value : W32)
  /-- INJECT_SLOT_TAKE (R369): When the slice FIFO has room, the device takes an inject slot and admits or drops its frame. -/
  | injectSlotTake (ring : BitVec 4) (slot : List Byte)
  /-- DMA_DOORBELL (R371): A write of a DMA channel's PI posts descriptors. -/
  | dmaDoorbell (path : Path) (channel : BitVec 4) (value : W32)
  /-- DMA_DESCRIPTOR_COMPLETE (R373): A DMA descriptor's last write leaves the engine; STATUS is written, CI advances and the
  pulse is sent. -/
  | dmaDescriptorComplete (channel : BitVec 4) (desc : List W64) (host : List Byte)
  /-- DMA_BUS_ERROR (R374): A bus error ends a DMA descriptor at once, marked bad. -/
  | dmaBusError (channel : BitVec 4) (desc : List W64) (host : List Byte) (moved : Nat)
  /-- DMA_LATE_ERROR (R375): An error reported after completion sets STATUS 0x03 and LATE. -/
  | dmaLateError (channel : BitVec 4)
  /-- DMA_CHANNEL_DISABLE (R374): Clearing a channel's EN stops it after the current 256 bytes and marks the descriptor bad.
  -/
  | dmaChannelDisable (path : Path) (channel : BitVec 4) (value : W32)
  /-- BFD_PACKET_RECEIVE (R376): The BFD service takes a control packet from its resident punt ring and updates the session.
  -/
  | bfdPacketReceive (ring : BitVec 4)
  /-- BFD_TRANSMIT_TIMER (R376): A session's transmit interval expires and the service sends a control packet. -/
  | bfdTransmitTimer (session : BitVec 14)
  /-- BFD_DETECT_TIMEOUT (R376): A session's detect time expires and it goes down with a notice. -/
  | bfdDetectTimeout (session : BitVec 14)
  /-- SMBUS_ADDRESS_SET (R377): SMBus command 0x10 sets the register address. -/
  | smbusAddressSet (addr : W32) (pecOk : Bool)
  /-- SMBUS_DWORD_ACCESS (R377): SMBus command 0x11 reads or writes one dword at the set address. -/
  | smbusDwordAccess (write : Option W32) (pecOk : Bool)
  /-- SMBUS_STRETCH_TIMEOUT (R377): A waiting SMBus access releases the bus after 25 ms. -/
  | smbusStretchTimeout
  /-- EVENT_RAISE (R380): The event controller receives a raise, sets the pending bit, logs it and sends an MSI-X message. -/
  | eventRaise (source : BitVec 11)
  /-- HOLDOFF_EXPIRY (R382): A vector's holdoff ends and collapsed triggers send one message. -/
  | holdoffExpiry (vector : BitVec 6)
  /-- EVT_SRC_CFG_WRITE (R382): A write setting EN of a pending source sends its message. -/
  | evtSrcCfgWrite (path : Path) (source : BitVec 11) (value : W32)
  /-- EVT_SW_SET (R381): A write of EVT_SW_SET raises a software source. -/
  | evtSwSet (path : Path) (value : W32)
  /-- EVT_LOG_REC_READ (R383): A read of EVT_LOG_REC that returns VALID removes and latches the oldest record. -/
  | evtLogRecRead (path : Path)
  /-- STAT_UPDATE (R387): A statistics update enters a cache bank and adds to its entry's accumulators. -/
  | statUpdate (bank : BitVec 4)
  /-- COUNTER_FLUSH (R388): A flush slot adds an entry's accumulators to its HBM record and clears them. -/
  | counterFlush (key : BitVec 27) (bad : Bool)
  /-- CNT_SNAPSHOT (R390): A write of SNAPSHOT moves counting to bank B at the next pica and starts flushing bank A. -/
  | cntSnapshot (path : Path) (value : W32)
  /-- SNAPSHOT_DONE (R390): Bank A is flushed; SNAP_DONE and FROZEN set and CNT_SNAP_DONE is raised. -/
  | snapshotDone
  /-- CNT_RELEASE (R390): A write of RELEASE clears FROZEN and SNAP_DONE. -/
  | cntRelease (path : Path) (value : W32)
  /-- FREEZE_EXPIRY (R390): FREEZE_MS after SNAP_DONE the freeze ends and FREEZE_EXPIRED sets. -/
  | freezeExpiry
  /-- EXPORT_PERIOD (R391): PERIOD_MS passes and the exporter takes a snapshot and copies the statistics range. -/
  | exportPeriod
  /-- EXPORT_PULSE (R391): 2 µs after the exporter's pulse it advances SEQ or sets EXP_LATE and releases the freeze. -/
  | exportPulse
  /-- POWER_STATE_ENTRY (R394): A group's or the device's condition has held for HOLD_US and it enters the deepest allowed
  state. -/
  | powerStateEntry (group : Fin 9)
  /-- POWER_STATE_EXIT (R395): An exit trigger starts leaving P1, P2 or P3. -/
  | powerStateExit (group : Fin 9)
  /-- LTR_WRITE (R394): A write of LTR_US applies at once and a lower value starts an exit. -/
  | ltrWrite (path : Path) (group : Fin 8) (value : W32)
  /-- P4_REQUEST (R396): A write of P4_REQ = 1 truncates receive and starts draining toward P4. -/
  | p4Request (path : Path) (value : W32)
  /-- P4_DRAIN_TIMEOUT (R396): After up to 10 ms of draining, remaining frames drop under PWR_DISCARD and the device stops. -/
  | p4DrainTimeout
  /-- P4_RELEASE (R396): A write of P4_REQ = 0 starts relocking PLLs and restarting lanes. -/
  | p4Release (path : Path) (value : W32)
  /-- P4_EXIT_DONE (R396): The device is back in P0 after leaving P4. -/
  | p4ExitDone
  /-- THERMAL_SAMPLE (R399): Every 1 ms the sensors are sampled and WARN, CRIT and TRIP actions taken. -/
  | thermalSample (temps : List (BitVec 16))
  /-- THERMAL_TRIP_RELEASE (R399): After 10 s below CRIT - 10 °C, mcore0 releases the CORE group. -/
  | thermalTripRelease
  /-- RAIL_OUT_OF_TOLERANCE (R413): A rail leaves its tolerance and behaviour is undefined until PORST_N. -/
  | railOutOfTolerance
  /-- REFERENCE_CLOCK_LOSS (R416): A line or fabric reference stops, unlocking its PLL and the lanes it clocks. -/
  | referenceClockLoss (ref : Ref)
  /-- JTAG_INSTRUCTION (R419): The test access port loads an instruction that takes the balls only while PORST_N is low. -/
  | jtagInstruction (instr : Jtag)
  /-- TWIN_LANE_FRAME_SEND (R308): A twin-link lane sends a lane frame carrying hello and mirror data cells with their SEQ. -/
  | twinLaneFrameSend (lane : Fin 2)
  /-- POWER_STATE_EXIT_DONE (R393): The exit latency of P1, P2 or P3 has passed, clocks and lanes are back and the group or
  device is in P0. -/
  | powerStateExitDone (group : Fin 9)
  /-- REASSEMBLY_RETRY (R291): A completed fabric frame that waited in the reorder store for buffers retries its allocation
  and is stored and enqueued. -/
  | reassemblyRetry
  /-- LANE_TEST_CHECK (R77): A lane test checker takes the received pattern, locks on it, sets CHK_LOCK and counts bit errors
  in ERR. -/
  | laneTestCheck (lane : BitVec 7) (locked : Bool) (errors : Nat)
  /-- PCIE_LINK_UP (R410): PCIe link training completes and the link comes up. -/
  | pcieLinkUp
  /-- REFERENCE_CLOCK_RETURN (R416): A line or fabric reference that had stopped runs again and its PLL relocks. -/
  | referenceClockReturn (ref : Ref)
  deriving DecidableEq, Repr

end Sys2Proof
end

