-- ==== Sys2Proof/Decode.lean ====
section
/-! DEFINITION. The block has no instruction decoder of a processor's kind, and the opcode table gives its rows no bits:
no word spells a command. The packet engines inside it do have an instruction set of 32-bit words (R182, Tables 8-5 and
8-6): its encoder and decoder stand here. -/
namespace Sys2Proof

/-- The command a table word spells: none, since no row of spec/opcode_table.json has bits. -/
def decodeTableWord (_nbits _w : Nat) : Option Instr := none

/-- The word of an engine instruction (R182, R183), with reserved and ignored bits zero; none for other commands. -/
def engEncode (i : Instr) : Option W32 :=
  match i with
  | .engineNop _ => some (0x00#6 ++ 0#26)
  | .add _ rd rs1 rs2 => some (0x01#6 ++ rd ++ rs1 ++ rs2 ++ 0#11)
  | .sub _ rd rs1 rs2 => some (0x02#6 ++ rd ++ rs1 ++ rs2 ++ 0#11)
  | .and _ rd rs1 rs2 => some (0x03#6 ++ rd ++ rs1 ++ rs2 ++ 0#11)
  | .or _ rd rs1 rs2 => some (0x04#6 ++ rd ++ rs1 ++ rs2 ++ 0#11)
  | .xor _ rd rs1 rs2 => some (0x05#6 ++ rd ++ rs1 ++ rs2 ++ 0#11)
  | .shl _ rd rs1 rs2 => some (0x06#6 ++ rd ++ rs1 ++ rs2 ++ 0#11)
  | .shr _ rd rs1 rs2 => some (0x07#6 ++ rd ++ rs1 ++ rs2 ++ 0#11)
  | .sar _ rd rs1 rs2 => some (0x08#6 ++ rd ++ rs1 ++ rs2 ++ 0#11)
  | .mul _ rd rs1 rs2 => some (0x09#6 ++ rd ++ rs1 ++ rs2 ++ 0#11)
  | .slt _ rd rs1 rs2 => some (0x0A#6 ++ rd ++ rs1 ++ rs2 ++ 0#11)
  | .sltu _ rd rs1 rs2 => some (0x0B#6 ++ rd ++ rs1 ++ rs2 ++ 0#11)
  | .seq _ rd rs1 rs2 => some (0x0C#6 ++ rd ++ rs1 ++ rs2 ++ 0#11)
  | .cmov _ rd rs1 rs2 => some (0x0D#6 ++ rd ++ rs1 ++ rs2 ++ 0#11)
  | .csum _ rd rs1 rs2 => some (0x0E#6 ++ rd ++ rs1 ++ rs2 ++ 0#11)
  | .crc _ rd rs1 rs2 => some (0x0F#6 ++ rd ++ rs1 ++ rs2 ++ 0#11)
  | .addi _ rd rs1 imm => some (0x10#6 ++ rd ++ rs1 ++ imm)
  | .andi _ rd rs1 imm => some (0x11#6 ++ rd ++ rs1 ++ imm)
  | .ori _ rd rs1 imm => some (0x12#6 ++ rd ++ rs1 ++ imm)
  | .xori _ rd rs1 imm => some (0x13#6 ++ rd ++ rs1 ++ imm)
  | .shli _ rd rs1 imm => some (0x14#6 ++ rd ++ rs1 ++ imm)
  | .shri _ rd rs1 imm => some (0x15#6 ++ rd ++ rs1 ++ imm)
  | .sari _ rd rs1 imm => some (0x16#6 ++ rd ++ rs1 ++ imm)
  | .movi _ rd imm => some (0x17#6 ++ rd ++ 0#5 ++ imm)
  | .lih _ rd rs1 imm => some (0x18#6 ++ rd ++ rs1 ++ imm)
  | .slti _ rd rs1 imm => some (0x19#6 ++ rd ++ rs1 ++ imm)
  | .seqi _ rd rs1 imm => some (0x1A#6 ++ rd ++ rs1 ++ imm)
  | .ext _ rd rs1 pos lenm1 => some (0x1C#6 ++ rd ++ rs1 ++ pos ++ lenm1 ++ 0#4)
  | .ins _ rd rs1 pos lenm1 => some (0x1D#6 ++ rd ++ rs1 ++ pos ++ lenm1 ++ 0#4)
  | .ld8 _ rd rs1 off => some (0x20#6 ++ rd ++ rs1 ++ off)
  | .ld16 _ rd rs1 off => some (0x21#6 ++ rd ++ rs1 ++ off)
  | .ld32 _ rd rs1 off => some (0x22#6 ++ rd ++ rs1 ++ off)
  | .ld64 _ rd rs1 off => some (0x23#6 ++ rd ++ rs1 ++ off)
  | .st8 _ rd rs1 off => some (0x24#6 ++ rd ++ rs1 ++ off)
  | .st16 _ rd rs1 off => some (0x25#6 ++ rd ++ rs1 ++ off)
  | .st32 _ rd rs1 off => some (0x26#6 ++ rd ++ rs1 ++ off)
  | .st64 _ rd rs1 off => some (0x27#6 ++ rd ++ rs1 ++ off)
  | .hins _ rs1 imm => some (0x28#6 ++ 0#5 ++ rs1 ++ imm)
  | .hdel _ rs1 imm => some (0x29#6 ++ 0#5 ++ rs1 ++ imm)
  | .atadd _ rd rs1 rs2 => some (0x2A#6 ++ rd ++ rs1 ++ rs2 ++ 0#11)
  | .dom _ rs1 => some (0x2B#6 ++ 0#5 ++ rs1 ++ 0#16)
  | .cpy _ ring reason => some (0x2C#6 ++ 0#12 ++ ring ++ reason)
  | .mirr _ session => some (0x2D#6 ++ 0#20 ++ session)
  | .cnta _ rs1 rs2 => some (0x2E#6 ++ 0#5 ++ rs1 ++ rs2 ++ 0#11)
  | .beq _ rs1 rs2 off => some (0x30#6 ++ rs1 ++ rs2 ++ off)
  | .bne _ rs1 rs2 off => some (0x31#6 ++ rs1 ++ rs2 ++ off)
  | .blt _ rs1 rs2 off => some (0x32#6 ++ rs1 ++ rs2 ++ off)
  | .bge _ rs1 rs2 off => some (0x33#6 ++ rs1 ++ rs2 ++ off)
  | .bltu _ rs1 rs2 off => some (0x34#6 ++ rs1 ++ rs2 ++ off)
  | .bgeu _ rs1 rs2 off => some (0x35#6 ++ rs1 ++ rs2 ++ off)
  | .jmp _ off => some (0x36#6 ++ off)
  | .call _ off => some (0x37#6 ++ off)
  | .jr _ rs1 => some (0x38#6 ++ 0#5 ++ rs1 ++ 0#16)
  | .punt _ ring reason => some (0x39#6 ++ 0#12 ++ ring ++ reason)
  | .lkx _ rd rs1 table touch learn => some (0x3A#6 ++ rd ++ rs1 ++ table ++ BitVec.ofBool touch ++ BitVec.ofBool learn ++ 0#10)
  | .lkt _ rd rs1 table width => some (0x3B#6 ++ rd ++ rs1 ++ table ++ width ++ 0#8)
  | .wait _ => some (0x3C#6 ++ 0#26)
  | .rdc _ rd sel => some (0x3D#6 ++ rd ++ 0#13 ++ sel)
  | .send _ => some (0x3E#6 ++ 0#26)
  | .drop _ reason => some (0x3F#6 ++ 0#16 ++ reason)
  | _ => none

/-- The engine instruction that a word spells when a thread issues it; none for the reserved opcodes 0x1B, 0x1E, 0x1F and
0x2F (R182, R183). Reserved and ignored bits play no part (R184). -/
def engDecode (q : Issue) (w : W32) : Option Instr :=
  match (w.extractLsb' 26 6).toNat with
  | 0x00 => some (.engineNop q)
  | 0x01 => some (.add q (w.extractLsb' 21 5) (w.extractLsb' 16 5) (w.extractLsb' 11 5))
  | 0x02 => some (.sub q (w.extractLsb' 21 5) (w.extractLsb' 16 5) (w.extractLsb' 11 5))
  | 0x03 => some (.and q (w.extractLsb' 21 5) (w.extractLsb' 16 5) (w.extractLsb' 11 5))
  | 0x04 => some (.or q (w.extractLsb' 21 5) (w.extractLsb' 16 5) (w.extractLsb' 11 5))
  | 0x05 => some (.xor q (w.extractLsb' 21 5) (w.extractLsb' 16 5) (w.extractLsb' 11 5))
  | 0x06 => some (.shl q (w.extractLsb' 21 5) (w.extractLsb' 16 5) (w.extractLsb' 11 5))
  | 0x07 => some (.shr q (w.extractLsb' 21 5) (w.extractLsb' 16 5) (w.extractLsb' 11 5))
  | 0x08 => some (.sar q (w.extractLsb' 21 5) (w.extractLsb' 16 5) (w.extractLsb' 11 5))
  | 0x09 => some (.mul q (w.extractLsb' 21 5) (w.extractLsb' 16 5) (w.extractLsb' 11 5))
  | 0x0A => some (.slt q (w.extractLsb' 21 5) (w.extractLsb' 16 5) (w.extractLsb' 11 5))
  | 0x0B => some (.sltu q (w.extractLsb' 21 5) (w.extractLsb' 16 5) (w.extractLsb' 11 5))
  | 0x0C => some (.seq q (w.extractLsb' 21 5) (w.extractLsb' 16 5) (w.extractLsb' 11 5))
  | 0x0D => some (.cmov q (w.extractLsb' 21 5) (w.extractLsb' 16 5) (w.extractLsb' 11 5))
  | 0x0E => some (.csum q (w.extractLsb' 21 5) (w.extractLsb' 16 5) (w.extractLsb' 11 5))
  | 0x0F => some (.crc q (w.extractLsb' 21 5) (w.extractLsb' 16 5) (w.extractLsb' 11 5))
  | 0x10 => some (.addi q (w.extractLsb' 21 5) (w.extractLsb' 16 5) (w.extractLsb' 0 16))
  | 0x11 => some (.andi q (w.extractLsb' 21 5) (w.extractLsb' 16 5) (w.extractLsb' 0 16))
  | 0x12 => some (.ori q (w.extractLsb' 21 5) (w.extractLsb' 16 5) (w.extractLsb' 0 16))
  | 0x13 => some (.xori q (w.extractLsb' 21 5) (w.extractLsb' 16 5) (w.extractLsb' 0 16))
  | 0x14 => some (.shli q (w.extractLsb' 21 5) (w.extractLsb' 16 5) (w.extractLsb' 0 16))
  | 0x15 => some (.shri q (w.extractLsb' 21 5) (w.extractLsb' 16 5) (w.extractLsb' 0 16))
  | 0x16 => some (.sari q (w.extractLsb' 21 5) (w.extractLsb' 16 5) (w.extractLsb' 0 16))
  | 0x17 => some (.movi q (w.extractLsb' 21 5) (w.extractLsb' 0 16))
  | 0x18 => some (.lih q (w.extractLsb' 21 5) (w.extractLsb' 16 5) (w.extractLsb' 0 16))
  | 0x19 => some (.slti q (w.extractLsb' 21 5) (w.extractLsb' 16 5) (w.extractLsb' 0 16))
  | 0x1A => some (.seqi q (w.extractLsb' 21 5) (w.extractLsb' 16 5) (w.extractLsb' 0 16))
  | 0x1C => some (.ext q (w.extractLsb' 21 5) (w.extractLsb' 16 5) (w.extractLsb' 10 6) (w.extractLsb' 4 6))
  | 0x1D => some (.ins q (w.extractLsb' 21 5) (w.extractLsb' 16 5) (w.extractLsb' 10 6) (w.extractLsb' 4 6))
  | 0x20 => some (.ld8 q (w.extractLsb' 21 5) (w.extractLsb' 16 5) (w.extractLsb' 0 16))
  | 0x21 => some (.ld16 q (w.extractLsb' 21 5) (w.extractLsb' 16 5) (w.extractLsb' 0 16))
  | 0x22 => some (.ld32 q (w.extractLsb' 21 5) (w.extractLsb' 16 5) (w.extractLsb' 0 16))
  | 0x23 => some (.ld64 q (w.extractLsb' 21 5) (w.extractLsb' 16 5) (w.extractLsb' 0 16))
  | 0x24 => some (.st8 q (w.extractLsb' 21 5) (w.extractLsb' 16 5) (w.extractLsb' 0 16))
  | 0x25 => some (.st16 q (w.extractLsb' 21 5) (w.extractLsb' 16 5) (w.extractLsb' 0 16))
  | 0x26 => some (.st32 q (w.extractLsb' 21 5) (w.extractLsb' 16 5) (w.extractLsb' 0 16))
  | 0x27 => some (.st64 q (w.extractLsb' 21 5) (w.extractLsb' 16 5) (w.extractLsb' 0 16))
  | 0x28 => some (.hins q (w.extractLsb' 16 5) (w.extractLsb' 0 16))
  | 0x29 => some (.hdel q (w.extractLsb' 16 5) (w.extractLsb' 0 16))
  | 0x2A => some (.atadd q (w.extractLsb' 21 5) (w.extractLsb' 16 5) (w.extractLsb' 11 5))
  | 0x2B => some (.dom q (w.extractLsb' 16 5))
  | 0x2C => some (.cpy q (w.extractLsb' 10 4) (w.extractLsb' 0 10))
  | 0x2D => some (.mirr q (w.extractLsb' 0 6))
  | 0x2E => some (.cnta q (w.extractLsb' 16 5) (w.extractLsb' 11 5))
  | 0x30 => some (.beq q (w.extractLsb' 21 5) (w.extractLsb' 16 5) (w.extractLsb' 0 16))
  | 0x31 => some (.bne q (w.extractLsb' 21 5) (w.extractLsb' 16 5) (w.extractLsb' 0 16))
  | 0x32 => some (.blt q (w.extractLsb' 21 5) (w.extractLsb' 16 5) (w.extractLsb' 0 16))
  | 0x33 => some (.bge q (w.extractLsb' 21 5) (w.extractLsb' 16 5) (w.extractLsb' 0 16))
  | 0x34 => some (.bltu q (w.extractLsb' 21 5) (w.extractLsb' 16 5) (w.extractLsb' 0 16))
  | 0x35 => some (.bgeu q (w.extractLsb' 21 5) (w.extractLsb' 16 5) (w.extractLsb' 0 16))
  | 0x36 => some (.jmp q (w.extractLsb' 0 26))
  | 0x37 => some (.call q (w.extractLsb' 0 26))
  | 0x38 => some (.jr q (w.extractLsb' 16 5))
  | 0x39 => some (.punt q (w.extractLsb' 10 4) (w.extractLsb' 0 10))
  | 0x3A => some (.lkx q (w.extractLsb' 21 5) (w.extractLsb' 16 5) (w.extractLsb' 12 4) (w.getLsbD 11) (w.getLsbD 10))
  | 0x3B => some (.lkt q (w.extractLsb' 21 5) (w.extractLsb' 16 5) (w.extractLsb' 10 6) (w.extractLsb' 8 2))
  | 0x3C => some (.wait q)
  | 0x3D => some (.rdc q (w.extractLsb' 21 5) (w.extractLsb' 0 8))
  | 0x3E => some (.send q)
  | 0x3F => some (.drop q (w.extractLsb' 0 10))
  | _ => none

end Sys2Proof
end

