-- ==== Sys2Proof/Config.lean ====
section
/-! DEFINITION. Free values and uninterpreted functions. Each is opaque and has no body: nothing proved of the model
rests on what it answers. The assumption log names each. -/
namespace Sys2Proof.Config

/-- A fresh value the spec leaves open, by the state's counter of such values (log entry 2). -/
opaque freeWord : Nat → W64
/-- Fresh bytes the spec leaves open: the device's random nonces (log entry 2). -/
opaque freeBytes : Nat → Nat → List Byte
/-- The CRC-32 of a vote window over header bits [63:32] and the descriptors; the spec gives its polynomial alone (log
entry 24). -/
opaque voteCrc : Nat → List W64 → W32

/-- What an adjacency makes of a frame: its index, EGR_ARG and the frame; the spec gives no entry contents (log entry 36). -/
opaque adjacency : Nat → Nat → List Byte → List Byte
/-- How many bytes that adjacency puts before an offset of the frame: index, EGR_ARG, frame, offset (log entry 36). -/
opaque adjacencyShift : Nat → Nat → List Byte → Nat → Nat
/-- The fixed latency in ns from the egress editor to the PCS, which the spec does not state (log entry 36). -/
opaque egressLatency : Nat
/-- Where ESP goes in a frame whose headers are neither IPv4 nor IPv6 (log entry 36): SPI, sequence number, SA key, frame. -/
opaque espOther : Nat → Nat → List Byte → List Byte → List Byte

/-- The MAC addresses of a BFD packet, by its local and peer address, which the spec does not give (log entry 48). -/
opaque bfdMacs : List Byte → List Byte → BitVec 96
/-- The low 14 bits of a BFD packet's UDP source port, by its local and peer address; RFC 5881 gives the two above (log entry
48). -/
opaque bfdPort : List Byte → List Byte → BitVec 14
/-- The traffic class and flow label of a BFD packet over IPv6, or its type of service and identification over IPv4, which the
spec does not give (log entry 48). -/
opaque bfdFlow : List Byte → List Byte → BitVec 28

/-- The state of an OTN port's payload scrambler before its first frame, by port (log entry 107). -/
opaque gfpScrambler : Nat → BitVec 43

/-- How many banks a pseudo-channel has (log entry 25). -/
opaque hbmBanks : Nat
/-- The bank of block 0 of a pseudo-channel (log entry 25). -/
opaque hbmFirstBank : Nat
/-- The row of a 1 KiB block within its bank, by the block (log entry 25). -/
opaque hbmRow : Nat → Nat
/-- The place within its row at which a 1 KiB block begins, by the block (log entry 25). -/
opaque hbmByte : Nat → Nat

/-- The parity symbols that RS(340,312) adds to the 312 data symbols of a codeword; the spec gives no generator polynomial
(log entry 35). -/
opaque laneParity : List Nat → List Nat
/-- The 31 bits from which the PRBS31 scrambler of a lane frame starts, which the spec does not give (log entry 35). -/
opaque laneScrambler : BitVec 31
/-- TC of a cell that carries no VOQ's data, which R280 does not give (log entry 35). -/
opaque cellTc : BitVec 3
/-- DEST_EP of an idle cell, which R280 does not give (log entry 35). -/
opaque idleDest : BitVec 10
/-- Bits [43:0] of a mirror record's header, by KIND and its fields; the spec gives only the bits above (log entry 26). -/
opaque mirrorHead : Nat → List Nat → BitVec 44
/-- The body of a mirror record that is no entry, by KIND and its fields; the spec lists what it holds and not where (log
entry 26). -/
opaque mirrorBody : Nat → List Nat → List Byte
/-- The egress slice that a standalone VOQ counts for where its DEST_QID has no L0 node: R294 names none (log entry 33). -/
opaque strayVoqSlice : BitVec 20 → BitVec 3
/-- How many further records a reassembly gap may have cut short, by a count of such gaps: the missing cells' contents are not
known (log entry 100). -/
opaque gapRecords : Nat → Bool

/-- Where in the management region the boot ROM keeps its working copy of an image (R336): no rule says (log entry 111). -/
opaque workingCopy : Nat
/-- A section of type 0x0002 to 0x0004, by its type, FLAGS and TARGET, loads into the management region and not into
management SRAM: Table 14-4 allows both and no rule says which (log entry 111). -/
opaque sectInHbm : Nat → Nat → Nat → Bool

end Sys2Proof.Config
end

