-- ==== Sys2Proof/Machine/Regs.lean ====
section
/-! DEFINITION. The registers of BAR0, from the register tables of every chapter of spec/: one name per register,
its base offset, index counts and strides, width, reset value (R6), and the access type of each bit (R7, Table 0-2),
then one name per field. A 96-bit or wider register is split into the words the spec names. -/
namespace Sys2Proof.Machine

/-- The register names of Table 15-3's blocks. -/
inductive Reg where
  | LNE_LANE_MAP | LNE_LANE_POL | LNE_LANE_TEST | LNE_SLICE_STATUS | LNE_PORT_CFG | LNE_PORT_CTRL
  | LNE_ALIGN_CFG | LNE_PORT_STATUS | LNE_DEFECT_RAW | LNE_DEFECT_RPT | LNE_DEFECT_STICKY | LNE_DEFECT_MASK
  | LNE_TS_ADJ | LNE_OTN_CFG | LNE_FEC_DEG | LNE_TX_TS | LNE_LATCH_SEQ | LNE_TTI_TX_SM
  | LNE_TTI_TX_PM | LNE_TTI_EXP_SM | LNE_TTI_EXP_PM | LNE_TTI_RX_SM | LNE_TTI_RX_PM | LNE_CNT
  | CRY_CTRL | CRY_STATUS | CRY_CACHE | CRY_NOTICE | CRY_SA_SWITCH | CRY_PORT_CFG
  | CRY_TX_SA
  | PRS_COMMIT | PRS_BANK_STATUS | PRS_SLICE_STAT
  | CLS_PORT_CFG | CLS_STATUS | CLS_PORT_USER | CLS_RANGE_BOUND | CLS_RANGE_SRC | CLS_PROF_CTRL
  | CLS_PROF_SEL | CLS_MIR_CFG | CLS_MIR_SAMPLE
  | XMT_CTRL | XMT_STATUS | XMT_LEARN_STATUS | XMT_FENCE_STATUS | XMT_FENCE_OLDEST | XMT_FENCE_WARN
  | XMT_ECC_LOG | XMT_TBL_CFG | XMT_TBL_BASE | XMT_TBL_SEED | XMT_TBL_AGE | XMT_TBL_TIME
  | XMT_TBL_LIMIT | XMT_TBL_ENTRIES | XMT_TBL_CAM
  | PPE_CTRL | PPE_STATUS | PPE_COMMIT | PPE_BANK_STATUS | PPE_PC_GLOBAL | PPE_RETIRE
  | PPE_FAULT_LOG | PPE_ERR_LOG | PPE_SLICE_CFG | PPE_SLICE_STAT | PPE_ROB_STATUS | PPE_SLICE_RETIRED
  | PPE_PORT_ENTRY | PPE_PC_CYCLE | PPE_PC_CFG | PPE_PC_VAL | PPE_PC_SNAP | PPE_PC_SAMPLE
  | PPE_PC_STATUS | PPE_USER
  | BUF_CTRL | BUF_STATUS | BUF_DROPS | BUF_SPILL | BUF_LOUPE_STATUS | BUF_LOUPE_REPORT
  | BUF_DFREE_LOG | BUF_ERR_LOG | BUF_POOL_CFG | BUF_POOL_FREE | BUF_POOL_MIN | BUF_POOL_DROP
  | TPL_CTRL | TPL_STATUS | TPL_LANE_STAT | TPL_RETIRE
  | HBM_CTRL | HBM_STATUS | HBM_ARB_CFG | HBM_RETIRE | HBM_ERR_LOG | HBM_ERR_INFO
  | HBM_READS | HBM_STACK_CFG | HBM_STACK_STATUS | HBM_STACK_MIG | HBM_STACK_CNT | HBM_PCH_STATE
  | QUE_CTRL | QUE_STATUS | QUE_DROPS | QUE_FLUSH | QUE_MC_STATUS | QUE_PUNT_QID
  | QUE_CFG_LIMIT | QUE_CFG_SPILL | QUE_CFG_TOTAL | QUE_CFG_YELLOW
  | SHP_STATUS | SHP_POL_DROPS | SHP_L0_HELD | SHP_GALLEY_CTRL | SHP_GALLEY_STATUS | SHP_GALLEY_BASE_SEC
  | SHP_GALLEY_BASE_NS | SHP_GALLEY_CYCLE | SHP_GALLEY_LEN
  | FAB_CTRL | FAB_STATUS | FAB_CREDIT_CFG | FAB_DISP_CFG | FAB_REASM_CFG | FAB_ELIM_CFG
  | FAB_RX_DROPS | FAB_ELIM_STAT | FAB_LANE_LIVE | FAB_LANE_RETIRE | FAB_ERR_LOG | FAB_GROUP_STATUS
  | CNT_CTRL | CNT_STATUS | CNT_SNAP_PICA | CNT_DROP_TOTAL | CNT_CACHE | CNT_ERR_LOG
  | CNT_EXP_CFG | CNT_EXP_RANGE | CNT_EXP_ADDR | CNT_EXP_STATUS
  | TRN_CTRL | TRN_STATUS | TRN_PORT_STATUS | TRN_PORT_RETIRE | TRN_MOVE_CTRL | TRN_MOVE_STATUS
  | TRN_SCRUB | TRN_ERR_LOG | TRN_FACET_STAT | TRN_TBL_CFG | TRN_TBL_ENTRIES | TRN_BLK_CFG
  | TRN_BLK_FACET
  | MGT_CTRL | MGT_STATUS | MGT_IMAGE | MGT_SECURITY | MGT_PROOF | MGT_UPDATE
  | MGT_UPDATE_MISS
  | HST_ID | HST_SERIAL | HST_SESS_CMD | HST_SESS_STATUS | HST_SESS_DATA | HST_CTRL
  | HST_STATUS | HST_HALT | HST_SMB_CFG | HST_WQ_CFG | HST_CQ_CFG | HST_WQ_STATUS
  | HST_PUNT_DROPS | HST_WQ_ADDR | HST_CQ_ADDR | HST_PUNT_ADDR | HST_INJ_ADDR | HST_PUNT_CFG
  | HST_INJ_CFG | HST_WQ_PI | HST_WQ_CI | HST_WQ_INVAL | HST_CQ_PI | HST_CQ_CI
  | HST_PUNT_PI | HST_PUNT_CI | HST_INJ_CI | HST_INJ_PI
  | DMA_CH_CFG | DMA_CH_STATUS | DMA_CH_RING | DMA_CH_PI | DMA_CH_CI
  | EVT_CTRL | EVT_STATUS | EVT_SUMMARY | EVT_LOG_REC | EVT_SW_SET | EVT_GRP_PEND
  | EVT_VEC_CFG | EVT_SRC_CFG
  | PWR_CTRL | PWR_STATUS | PWR_THERM_CFG | PWR_THERM_STATUS | PWR_GRP_CFG | PWR_GRP_STATUS
  | PWR_THERM_SENSOR
  | TIM_CTRL | TIM_STATUS | TIM_PICA_NUM | TIM_TOD_SEC | TIM_TOD_NS | TIM_INCR
  | TIM_ADJ
  | RED_CTRL | RED_STATUS | RED_FAULT | RED_FATAL | RED_TWIN_CFG | RED_TWIN_STATUS
  | RED_TWIN_RETIRE | RED_CB_CFG | RED_CB_DROPS | RED_SYNC | RED_ROLE_PICA
  deriving DecidableEq, Repr

/-- What the spec's header line and field table say of one register: the BAR0 offset of its first copy, up to
three index counts with their strides in bytes, its width, its reset value, the bits of each access type of Table 0-2
(a bit in none of the masks is RO or reserved), and the bits kept through resets other than PKG (R6). -/
structure RegInfo where
  base : Nat
  n1 : Nat := 1
  s1 : Nat := 0
  n2 : Nat := 1
  s2 : Nat := 0
  n3 : Nat := 1
  s3 : Nat := 0
  bits : Nat := 32
  reset : Nat := 0
  rw : Nat := 0
  w1c : Nat := 0
  rc : Nat := 0
  wo : Nat := 0
  rwl : Nat := 0
  keep : Nat := 0
  deriving DecidableEq, Repr

/-- The register tables of the chapters. -/
def Reg.info : Reg → RegInfo
  | .TIM_CTRL => { base := 0x3200000, reset := 0x643201, rw := 0x1FFFF83 }
  | .TIM_STATUS => { base := 0x3200004, w1c := 0xC, rc := 0xFF00, keep := 0xFFFF0000 }
  | .TIM_PICA_NUM => { base := 0x3200010, bits := 64 }
  | .TIM_TOD_SEC => { base := 0x3200020, bits := 64, rw := 0xFFFFFFFFFFFF }
  | .TIM_TOD_NS => { base := 0x3200028 }
  | .TIM_INCR => { base := 0x3200030, bits := 64, reset := 0x200000000, rw := 0xFFFFFFFFFF }
  | .TIM_ADJ => { base := 0x3200038, wo := 0xFFFFFFFF }
  | .LNE_LANE_MAP => { base := 0x40000, n1 := 8, s1 := 0x4000, bits := 64, reset := 0xFEDCBA9876543210, rw := 0xFFFFFFFFFFFFFFFF }
  | .LNE_LANE_POL => { base := 0x40008, n1 := 8, s1 := 0x4000, rw := 0xFFFFFFFF }
  | .LNE_LANE_TEST => { base := 0x40010, n1 := 8, s1 := 0x4000, n2 := 16, s2 := 0x4, rw := 0xF0000000, rc := 0xFFFFFF }
  | .LNE_SLICE_STATUS => { base := 0x40050, n1 := 8, s1 := 0x4000, w1c := 0x1 }
  | .LNE_PORT_CFG => { base := 0x40400, n1 := 8, s1 := 0x4000, n2 := 16, s2 := 0x40, rw := 0x8000000F }
  | .LNE_PORT_CTRL => { base := 0x40404, n1 := 8, s1 := 0x4000, n2 := 16, s2 := 0x40, reset := 0x8004000, rw := 0x7C007FFF, wo := 0x80000000 }
  | .LNE_ALIGN_CFG => { base := 0x40408, n1 := 8, s1 := 0x4000, n2 := 16, s2 := 0x40, reset := 0x1530, rw := 0x7F70 }
  | .LNE_PORT_STATUS => { base := 0x4040C, n1 := 8, s1 := 0x4000, n2 := 16, s2 := 0x40, rc := 0xFF00 }
  | .LNE_DEFECT_RAW => { base := 0x40410, n1 := 8, s1 := 0x4000, n2 := 16, s2 := 0x40 }
  | .LNE_DEFECT_RPT => { base := 0x40414, n1 := 8, s1 := 0x4000, n2 := 16, s2 := 0x40 }
  | .LNE_DEFECT_STICKY => { base := 0x40418, n1 := 8, s1 := 0x4000, n2 := 16, s2 := 0x40, w1c := 0x1FFFFF }
  | .LNE_DEFECT_MASK => { base := 0x4041C, n1 := 8, s1 := 0x4000, n2 := 16, s2 := 0x40, rw := 0x1FFFFF }
  | .LNE_TS_ADJ => { base := 0x40420, n1 := 8, s1 := 0x4000, n2 := 16, s2 := 0x40, rw := 0xFFFFFFFF }
  | .LNE_OTN_CFG => { base := 0x40424, n1 := 8, s1 := 0x4000, n2 := 16, s2 := 0x40, reset := 0x70000500, rw := 0xFFFFFFF8 }
  | .LNE_FEC_DEG => { base := 0x40428, n1 := 8, s1 := 0x4000, n2 := 16, s2 := 0x40, reset := 0x30000000, rw := 0xFFFFFFFF }
  | .LNE_TX_TS => { base := 0x40430, n1 := 8, s1 := 0x4000, n2 := 16, s2 := 0x40, n3 := 4, s3 := 0x4, rc := 0x80000000 }
  | .LNE_LATCH_SEQ => { base := 0x60000 }
  | .CRY_CTRL => { base := 0x80000, rw := 0x80000000 }
  | .CRY_STATUS => { base := 0x80004, w1c := 0x7 }
  | .CRY_CACHE => { base := 0x80008, rc := 0xFFFF }
  | .CRY_NOTICE => { base := 0x80020, rc := 0xE003FFFF }
  | .CRY_SA_SWITCH => { base := 0x80024, wo := 0x3FFFF }
  | .CRY_PORT_CFG => { base := 0x80400, n1 := 128, s1 := 0x10, rw := 0xFFDFFC00 }
  | .CRY_TX_SA => { base := 0x80404, n1 := 128, s1 := 0x10, rw := 0x8003FFFF }
  | .PRS_COMMIT => { base := 0xC0000, wo := 0xFF }
  | .PRS_BANK_STATUS => { base := 0xC0004, w1c := 0x80000000 }
  | .PRS_SLICE_STAT => { base := 0xC1000, n1 := 8, s1 := 0x100, rc := 0xFFFF003F }
  | .CLS_PORT_CFG => { base := 0x100000, n1 := 8, s1 := 0x4000, n2 := 16, s2 := 0x4, reset := 0x2000000, rw := 0xFFFFFFE0 }
  | .CLS_STATUS => { base := 0x100040, n1 := 8, s1 := 0x4000, w1c := 0x1, rc := 0xFFFF0000 }
  | .CLS_PORT_USER => { base := 0x100080, n1 := 8, s1 := 0x4000, n2 := 16, s2 := 0x4, rw := 0xFFFFFFFF }
  | .CLS_RANGE_BOUND => { base := 0x100400, n1 := 8, s1 := 0x4000, n2 := 256, s2 := 0x8, rw := 0xFFFFFFFF }
  | .CLS_RANGE_SRC => { base := 0x100404, n1 := 8, s1 := 0x4000, n2 := 256, s2 := 0x8, rw := 0x8000003F }
  | .CLS_PROF_CTRL => { base := 0x101000, n1 := 8, s1 := 0x4000, n2 := 32, s2 := 0x40, rw := 0xFFFFFFFE }
  | .CLS_PROF_SEL => { base := 0x101004, n1 := 8, s1 := 0x4000, n2 := 32, s2 := 0x40, n3 := 10, s3 := 0x4, rw := 0x7F7F7F7F }
  | .CLS_MIR_CFG => { base := 0x120000, n1 := 64, s1 := 0x8, rw := 0xFF8FFFFF }
  | .CLS_MIR_SAMPLE => { base := 0x120004, n1 := 64, s1 := 0x8, rw := 0xFFFF }
  | .XMT_CTRL => { base := 0x140000, reset := 0x80000000, rw := 0xC0000000 }
  | .XMT_STATUS => { base := 0x140004, w1c := 0xF }
  | .XMT_LEARN_STATUS => { base := 0x140008, rc := 0xFFFFFFFF }
  | .XMT_FENCE_STATUS => { base := 0x14000C, w1c := 0x1 }
  | .XMT_FENCE_OLDEST => { base := 0x140010, bits := 64, reset := 0xFFFFFFFFFFFFFFFF }
  | .XMT_FENCE_WARN => { base := 0x140018, reset := 0x2710, rw := 0xFFFFFF }
  | .XMT_ECC_LOG => { base := 0x140020, bits := 64 }
  | .XMT_TBL_CFG => { base := 0x140400, n1 := 16, s1 := 0x20, rw := 0xFFF000FF }
  | .XMT_TBL_BASE => { base := 0x140404, n1 := 16, s1 := 0x20, rw := 0x3FFFFF }
  | .XMT_TBL_SEED => { base := 0x140408, n1 := 16, s1 := 0x20, rw := 0xFFFFFFFF }
  | .XMT_TBL_AGE => { base := 0x14040C, n1 := 16, s1 := 0x20, reset := 0x3E87FFF, rw := 0xFFFF7FFF }
  | .XMT_TBL_TIME => { base := 0x140410, n1 := 16, s1 := 0x20, reset := 0x7FFF0000, rw := 0x7FFF0000 }
  | .XMT_TBL_LIMIT => { base := 0x140414, n1 := 16, s1 := 0x20, rw := 0x1FFFFFF }
  | .XMT_TBL_ENTRIES => { base := 0x140418, n1 := 16, s1 := 0x20 }
  | .XMT_TBL_CAM => { base := 0x14041C, n1 := 16, s1 := 0x20 }
  | .TRN_CTRL => { base := 0x2000000, reset := 0x801, rw := 0xFF03 }
  | .TRN_STATUS => { base := 0x2000004, w1c := 0x3F }
  | .TRN_PORT_STATUS => { base := 0x2000008, keep := 0xFFFF }
  | .TRN_PORT_RETIRE => { base := 0x200000C, wo := 0xFFFF }
  | .TRN_MOVE_CTRL => { base := 0x2000010, bits := 64, rw := 0xFFF3FFFFF3FFFFF, wo := 0x8000000000000000 }
  | .TRN_MOVE_STATUS => { base := 0x2000018 }
  | .TRN_SCRUB => { base := 0x2000020, rc := 0xFFFFFFFF }
  | .TRN_ERR_LOG => { base := 0x2000028, bits := 64 }
  | .TRN_FACET_STAT => { base := 0x2000030, rc := 0xFFFF0000 }
  | .TRN_TBL_CFG => { base := 0x2000400, n1 := 64, s1 := 0x8, rw := 0xFFFFE000 }
  | .TRN_TBL_ENTRIES => { base := 0x2000404, n1 := 64, s1 := 0x8 }
  | .TRN_BLK_CFG => { base := 0x2001000, n1 := 1024, s1 := 0x8, rw := 0xBF000000 }
  | .TRN_BLK_FACET => { base := 0x2001004, n1 := 1024, s1 := 0x8, rw := 0xFFFFFFFF }
  | .PPE_CTRL => { base := 0x180000, reset := 0x400, rw := 0xFF00 }
  | .PPE_STATUS => { base := 0x180004, w1c := 0x1F }
  | .PPE_COMMIT => { base := 0x180008, wo := 0xFF }
  | .PPE_BANK_STATUS => { base := 0x18000C }
  | .PPE_PC_GLOBAL => { base := 0x180010, rw := 0x80000000, wo := 0x40000000 }
  | .PPE_RETIRE => { base := 0x180014, wo := 0x800001FF }
  | .PPE_FAULT_LOG => { base := 0x180020, bits := 64 }
  | .PPE_ERR_LOG => { base := 0x180028, bits := 64 }
  | .PPE_SLICE_CFG => { base := 0x184000, n1 := 8, s1 := 0x4000, reset := 0x40, rw := 0xFF }
  | .PPE_SLICE_STAT => { base := 0x184004, n1 := 8, s1 := 0x4000, rc := 0xFFFFFFFF }
  | .PPE_ROB_STATUS => { base := 0x184008, n1 := 8, s1 := 0x4000 }
  | .PPE_SLICE_RETIRED => { base := 0x184010, n1 := 8, s1 := 0x4000, bits := 64, keep := 0xFFFFFFFFFFFFFFFF }
  | .PPE_PORT_ENTRY => { base := 0x184040, n1 := 8, s1 := 0x4000, n2 := 16, s2 := 0x4, rw := 0xF }
  | .PPE_PC_CYCLE => { base := 0x185000, n1 := 8, s1 := 0x4000, n2 := 4, s2 := 0x400, bits := 64, rw := 0xFFFFFFFFFFFF, w1c := 0x8000000000000000 }
  | .PPE_PC_CFG => { base := 0x185010, n1 := 8, s1 := 0x4000, n2 := 4, s2 := 0x400, n3 := 8, s3 := 0x4, rw := 0xF8FFFFFF }
  | .PPE_PC_VAL => { base := 0x185040, n1 := 8, s1 := 0x4000, n2 := 4, s2 := 0x400, n3 := 8, s3 := 0x8, bits := 64, rw := 0xFFFFFFFFFFFF, w1c := 0x8000000000000000 }
  | .PPE_PC_SNAP => { base := 0x185100, n1 := 8, s1 := 0x4000, n2 := 4, s2 := 0x400, n3 := 9, s3 := 0x8, bits := 64 }
  | .PPE_PC_SAMPLE => { base := 0x185180, n1 := 8, s1 := 0x4000, n2 := 4, s2 := 0x400, bits := 64, rc := 0x80000000 }
  | .PPE_PC_STATUS => { base := 0x185188, n1 := 8, s1 := 0x4000, n2 := 4, s2 := 0x400, w1c := 0x20 }
  | .BUF_CTRL => { base := 0x1000000, reset := 0x86404000, rw := 0xFFF00000, wo := 0x80000, rwl := 0x7FFF }
  | .BUF_STATUS => { base := 0x1000004, w1c := 0x7F }
  | .BUF_DROPS => { base := 0x1000008, rc := 0xFFFFFFFF }
  | .BUF_SPILL => { base := 0x1000010, bits := 64 }
  | .BUF_LOUPE_STATUS => { base := 0x1000018, rc := 0xFFFF0000 }
  | .BUF_LOUPE_REPORT => { base := 0x1000020, bits := 64, rc := 0x80000000 }
  | .BUF_DFREE_LOG => { base := 0x1000028, rc := 0xFF000000 }
  | .BUF_ERR_LOG => { base := 0x1000030, bits := 64 }
  | .BUF_POOL_CFG => { base := 0x1000100, n1 := 8, s1 := 0x10, rwl := 0xF81FFFFF }
  | .BUF_POOL_FREE => { base := 0x1000104, n1 := 8, s1 := 0x10 }
  | .BUF_POOL_MIN => { base := 0x1000108, n1 := 8, s1 := 0x10, rc := 0x1FFFFF }
  | .BUF_POOL_DROP => { base := 0x100010C, n1 := 8, s1 := 0x10, rc := 0xFFFFFFFF }
  | .TPL_CTRL => { base := 0x1040000, reset := 0x1000, rw := 0xFF00 }
  | .TPL_STATUS => { base := 0x1040004, reset := 0x3F, w1c := 0x80, keep := 0x33F }
  | .TPL_LANE_STAT => { base := 0x1040010, n1 := 2, s1 := 0x10, n2 := 3, s2 := 0x4, rc := 0xFFFFFFFF }
  | .TPL_RETIRE => { base := 0x1040020, wo := 0x3F }
  | .HBM_CTRL => { base := 0x1080000, reset := 0x8C024064, rw := 0xFF8FFFFF }
  | .HBM_STATUS => { base := 0x1080004, w1c := 0xF9, keep := 0x6 }
  | .HBM_ARB_CFG => { base := 0x1080010, bits := 64, reset := 0xC010204020608080, rw := 0xFFFFFFFFFFFFFFC0 }
  | .HBM_RETIRE => { base := 0x1080020, wo := 0x8000007F }
  | .HBM_ERR_LOG => { base := 0x1080028, bits := 64 }
  | .HBM_ERR_INFO => { base := 0x1080030 }
  | .HBM_READS => { base := 0x1080038, rc := 0x3FFF0000 }
  | .HBM_STACK_CFG => { base := 0x1080100, n1 := 4, s1 := 0x10, reset := 0x4000001F, rw := 0x40000000, rwl := 0x80000000, keep := 0x1F }
  | .HBM_STACK_STATUS => { base := 0x1080104, n1 := 4, s1 := 0x10, keep := 0xFE0000 }
  | .HBM_STACK_MIG => { base := 0x1080108, n1 := 4, s1 := 0x10, keep := 0xFFFFF }
  | .HBM_STACK_CNT => { base := 0x108010C, n1 := 4, s1 := 0x10, rc := 0xFFFFFFFF }
  | .HBM_PCH_STATE => { base := 0x1080200, n1 := 4, s1 := 0x8, bits := 64, reset := 0xC000000000000000, keep := 0xFFFFFFFFFFFFFFFF }
  | .QUE_CTRL => { base := 0x10C0000, reset := 0x80000, rwl := 0xF0000 }
  | .QUE_STATUS => { base := 0x10C0004, w1c := 0xF }
  | .QUE_DROPS => { base := 0x10C0008, rc := 0xFFFFFFFF }
  | .QUE_FLUSH => { base := 0x10C0010, wo := 0x800FFFFF }
  | .QUE_MC_STATUS => { base := 0x10C0014, rc := 0xFFFF1FFF }
  | .QUE_PUNT_QID => { base := 0x10C0100, n1 := 16, s1 := 0x4, rw := 0x800FFFFF }
  | .QUE_CFG_LIMIT => { base := 0x10C0400, n1 := 64, s1 := 0x10, reset := 0x4000, rw := 0xFFFFFF }
  | .QUE_CFG_SPILL => { base := 0x10C0404, n1 := 64, s1 := 0x10, rw := 0xFFFFFFFF }
  | .QUE_CFG_TOTAL => { base := 0x10C0408, n1 := 64, s1 := 0x10, reset := 0x100, rw := 0xFFFFFF }
  | .QUE_CFG_YELLOW => { base := 0x10C040C, n1 := 64, s1 := 0x10, reset := 0xC0, rw := 0xFFFFFF }
  | .SHP_STATUS => { base := 0x1100004, w1c := 0xF }
  | .SHP_POL_DROPS => { base := 0x1100008, rc := 0xFFFFFFFF }
  | .SHP_L0_HELD => { base := 0x1100010, n1 := 6, s1 := 0x4 }
  | .SHP_GALLEY_CTRL => { base := 0x1101000, n1 := 128, s1 := 0x40, rw := 0x8000FF00, wo := 0x20000000 }
  | .SHP_GALLEY_STATUS => { base := 0x1101004, n1 := 128, s1 := 0x40, reset := 0x800000FF, rc := 0xFF00 }
  | .SHP_GALLEY_BASE_SEC => { base := 0x1101008, n1 := 128, s1 := 0x40, bits := 64, rw := 0xFFFFFFFFFFFF }
  | .SHP_GALLEY_BASE_NS => { base := 0x1101010, n1 := 128, s1 := 0x40, rw := 0xFFFFFFFF }
  | .SHP_GALLEY_CYCLE => { base := 0x1101014, n1 := 128, s1 := 0x40, rw := 0xFFFFFFFF }
  | .SHP_GALLEY_LEN => { base := 0x1101018, n1 := 128, s1 := 0x40, rw := 0x7FF }
  | .FAB_CTRL => { base := 0x1140000, reset := 0x35080000, rw := 0x7FFF0000, rwl := 0x3FF }
  | .FAB_STATUS => { base := 0x1140004, w1c := 0x1F }
  | .FAB_CREDIT_CFG => { base := 0x1140008, reset := 0x74C0A040, rw := 0xFFFFFFFF }
  | .FAB_DISP_CFG => { base := 0x114000C, reset := 0x10, rw := 0xFF }
  | .FAB_REASM_CFG => { base := 0x1140010, reset := 0x50014, rw := 0xFFFFFFFF }
  | .FAB_ELIM_CFG => { base := 0x1140014, reset := 0x4003E8, rw := 0xFFFFFF }
  | .FAB_RX_DROPS => { base := 0x1140018, rc := 0xFFFFFFFF }
  | .FAB_ELIM_STAT => { base := 0x114001C, rc := 0xFFFFFFFF }
  | .FAB_LANE_LIVE => { base := 0x1140020, n1 := 5, s1 := 0x4 }
  | .FAB_LANE_RETIRE => { base := 0x1140040, wo := 0x800000FF }
  | .FAB_ERR_LOG => { base := 0x1140048, bits := 64 }
  | .FAB_GROUP_STATUS => { base := 0x1140100, n1 := 40, s1 := 0x4, rc := 0xFFFF }
  | .RED_CTRL => { base := 0x3240000, reset := 0x40000000, rw := 0xE0000000, rwl := 0x7FF }
  | .RED_STATUS => { base := 0x3240004, w1c := 0xF }
  | .RED_FAULT => { base := 0x3240008, reset := 0x3F, rw := 0x7F }
  | .RED_FATAL => { base := 0x324000C, keep := 0xFF000001 }
  | .RED_TWIN_CFG => { base := 0x3240010, reset := 0x8350000, rw := 0xFF7F0000 }
  | .RED_TWIN_STATUS => { base := 0x3240014, rc := 0xFFFF }
  | .RED_TWIN_RETIRE => { base := 0x3240018, wo := 0x80000001 }
  | .RED_CB_CFG => { base := 0x324001C, reset := 0x3E8, rw := 0xFFFF }
  | .RED_CB_DROPS => { base := 0x3240020, rc := 0xFFFFFFFF }
  | .RED_SYNC => { base := 0x3240024, rc := 0xFFFFFF00 }
  | .RED_ROLE_PICA => { base := 0x3240028, bits := 64 }
  | .MGT_CTRL => { base := 0x3000000, wo := 0x78000000 }
  | .MGT_STATUS => { base := 0x3000004, w1c := 0x900000 }
  | .MGT_IMAGE => { base := 0x3000008 }
  | .MGT_SECURITY => { base := 0x300000C }
  | .MGT_PROOF => { base := 0x3000010, reset := 0x2580003C }
  | .MGT_UPDATE => { base := 0x3000014 }
  | .MGT_UPDATE_MISS => { base := 0x3000018 }
  | .HST_ID => { base := 0x3040000, reset := 0x25600A1 }
  | .HST_SERIAL => { base := 0x3040008, bits := 64 }
  | .HST_SESS_CMD => { base := 0x3040010, wo := 0xF8000000 }
  | .HST_SESS_STATUS => { base := 0x3040014 }
  | .HST_SESS_DATA => { base := 0x3040020, n1 := 8, s1 := 0x4, rw := 0xFFFFFFFF }
  | .HST_CTRL => { base := 0x3040040, rw := 0xBF00003F }
  | .HST_STATUS => { base := 0x3040044, w1c := 0xF }
  | .HST_HALT => { base := 0x3040048, bits := 64 }
  | .HST_SMB_CFG => { base := 0x3040050, reset := 0x5C, rw := 0x7F }
  | .HST_WQ_CFG => { base := 0x3041008, n1 := 64, s1 := 0x40, rw := 0xC01F003F }
  | .HST_CQ_CFG => { base := 0x3042008, n1 := 64, s1 := 0x20, rw := 0xC01F003F }
  | .HST_WQ_STATUS => { base := 0x3041018, n1 := 64, s1 := 0x40, w1c := 0x3 }
  | .HST_PUNT_DROPS => { base := 0x3043014, n1 := 16, s1 := 0x20, rc := 0xFFFFFFFF }
  | .DMA_CH_CFG => { base := 0x3080108, n1 := 16, s1 := 0x20, rw := 0xC00F0000 }
  | .DMA_CH_STATUS => { base := 0x3080114, n1 := 16, s1 := 0x20, w1c := 0x40000000, rc := 0xFFFF }
  | .EVT_CTRL => { base := 0x30C0000, reset := 0x80000000, rw := 0x80000000 }
  | .EVT_STATUS => { base := 0x30C0004, w1c := 0x3 }
  | .EVT_SUMMARY => { base := 0x30C0008, bits := 64 }
  | .EVT_LOG_REC => { base := 0x30C0010, n1 := 6, s1 := 0x4, rc := 0x80000000 }
  | .EVT_SW_SET => { base := 0x30C0040, wo := 0x800007FF }
  | .EVT_GRP_PEND => { base := 0x30C0100, n1 := 36, s1 := 0x4, w1c := 0xFFFFFFFF }
  | .EVT_VEC_CFG => { base := 0x30C0400, n1 := 64, s1 := 0x4, rw := 0xFFFF }
  | .EVT_SRC_CFG => { base := 0x30C1000, n1 := 1152, s1 := 0x4, reset := 0x40000000, rw := 0xC000003F }
  | .CNT_CTRL => { base := 0x1480000, reset := 0x320C8000, rw := 0x3FFFE000, wo := 0xC0000000 }
  | .CNT_STATUS => { base := 0x1480004, w1c := 0xF }
  | .CNT_SNAP_PICA => { base := 0x1480008, bits := 64 }
  | .CNT_DROP_TOTAL => { base := 0x1480010, bits := 64 }
  | .CNT_CACHE => { base := 0x1480018, rc := 0xFFFC0000 }
  | .CNT_ERR_LOG => { base := 0x1480020, bits := 64 }
  | .CNT_EXP_CFG => { base := 0x1480028, reset := 0x3E8, rw := 0x800FFFFF }
  | .CNT_EXP_RANGE => { base := 0x1480030, bits := 64, rw := 0x3FFFFFF01FFFFFF }
  | .CNT_EXP_ADDR => { base := 0x1480038, bits := 64, rw := 0xFFFFFFFFFFFFF000 }
  | .CNT_EXP_STATUS => { base := 0x1480040 }
  | .PWR_CTRL => { base := 0x3100000, reset := 0x40000064, rw := 0xC000FFFF }
  | .PWR_STATUS => { base := 0x3100004, w1c := 0x1 }
  | .PWR_THERM_CFG => { base := 0x3100010, reset := 0x695F, rw := 0xFFFF }
  | .PWR_THERM_STATUS => { base := 0x3100014 }
  | .PWR_GRP_CFG => { base := 0x3100100, n1 := 8, s1 := 0x8, rw := 0xFFFFF }
  | .PWR_GRP_STATUS => { base := 0x3100104, n1 := 8, s1 := 0x8, rc := 0xFFFF }
  | .PWR_THERM_SENSOR => { base := 0x3100200, n1 := 26, s1 := 0x4 }
  | .HST_WQ_ADDR => { base := 0x3041000, n1 := 64, s1 := 0x40, bits := 64, rw := 0xFFFFFFFFFFFFF000 }
  | .HST_CQ_ADDR => { base := 0x3042000, n1 := 64, s1 := 0x20, bits := 64, rw := 0xFFFFFFFFFFFFF000 }
  | .HST_PUNT_ADDR => { base := 0x3043000, n1 := 16, s1 := 0x20, bits := 64, rw := 0xFFFFFFFFFFFFF000 }
  | .HST_INJ_ADDR => { base := 0x3043400, n1 := 16, s1 := 0x20, bits := 64, rw := 0xFFFFFFFFFFFFF000 }
  | .DMA_CH_RING => { base := 0x3080100, n1 := 16, s1 := 0x20, bits := 64, rw := 0xFFFFFFFFFFFFF000 }
  | .HST_PUNT_CFG => { base := 0x3043008, n1 := 16, s1 := 0x20, rw := 0xA31F003F, rwl := 0x40000000 }
  | .HST_INJ_CFG => { base := 0x3043408, n1 := 16, s1 := 0x20, rw := 0xA31F003F, rwl := 0x40000000 }
  | .HST_WQ_PI => { base := 0x304100C, n1 := 64, s1 := 0x40, rw := 0xFFFFFFFF }
  | .HST_WQ_CI => { base := 0x3041010, n1 := 64, s1 := 0x40, rw := 0xFFFFFFFF }
  | .HST_WQ_INVAL => { base := 0x3041014, n1 := 64, s1 := 0x40, wo := 0xFFFFFFFF }
  | .HST_CQ_PI => { base := 0x304200C, n1 := 64, s1 := 0x20 }
  | .HST_CQ_CI => { base := 0x3042010, n1 := 64, s1 := 0x20, rw := 0xFFFFFFFF }
  | .HST_PUNT_PI => { base := 0x304300C, n1 := 16, s1 := 0x20 }
  | .HST_PUNT_CI => { base := 0x3043010, n1 := 16, s1 := 0x20, rw := 0xFFFFFFFF }
  | .HST_INJ_CI => { base := 0x304340C, n1 := 16, s1 := 0x20 }
  | .HST_INJ_PI => { base := 0x3043410, n1 := 16, s1 := 0x20, rw := 0xFFFFFFFF }
  | .DMA_CH_PI => { base := 0x308010C, n1 := 16, s1 := 0x20, rw := 0xFFFFFFFF }
  | .DMA_CH_CI => { base := 0x3080110, n1 := 16, s1 := 0x20 }
  | .LNE_TTI_TX_SM => { base := 0x40800, n1 := 8, s1 := 0x4000, n2 := 16, s2 := 0x200, n3 := 16, s3 := 0x4, rw := 0xFFFFFFFF }
  | .LNE_TTI_TX_PM => { base := 0x40840, n1 := 8, s1 := 0x4000, n2 := 16, s2 := 0x200, n3 := 16, s3 := 0x4, rw := 0xFFFFFFFF }
  | .LNE_TTI_EXP_SM => { base := 0x40880, n1 := 8, s1 := 0x4000, n2 := 16, s2 := 0x200, n3 := 16, s3 := 0x4, rw := 0xFFFFFFFF }
  | .LNE_TTI_EXP_PM => { base := 0x408C0, n1 := 8, s1 := 0x4000, n2 := 16, s2 := 0x200, n3 := 16, s3 := 0x4, rw := 0xFFFFFFFF }
  | .LNE_TTI_RX_SM => { base := 0x40900, n1 := 8, s1 := 0x4000, n2 := 16, s2 := 0x200, n3 := 16, s3 := 0x4 }
  | .LNE_TTI_RX_PM => { base := 0x40940, n1 := 8, s1 := 0x4000, n2 := 16, s2 := 0x200, n3 := 16, s3 := 0x4 }
  | .LNE_CNT => { base := 0x42800, n1 := 8, s1 := 0x4000, n2 := 16, s2 := 0x80, n3 := 22, s3 := 0x4 }
  | .PPE_USER => { base := 0x1B0000, n1 := 32, s1 := 0x80, n2 := 9, s2 := 0x8, bits := 64 }

/-- The registers of one block of Table 15-3, by BAR0 offset bits [25:18]. -/
def Reg.ofBlock : Nat → List Reg
  | 0x1 => [.LNE_LANE_MAP, .LNE_LANE_POL, .LNE_LANE_TEST, .LNE_SLICE_STATUS, .LNE_PORT_CFG, .LNE_PORT_CTRL, .LNE_ALIGN_CFG, .LNE_PORT_STATUS, .LNE_DEFECT_RAW, .LNE_DEFECT_RPT, .LNE_DEFECT_STICKY, .LNE_DEFECT_MASK, .LNE_TS_ADJ, .LNE_OTN_CFG, .LNE_FEC_DEG, .LNE_TX_TS, .LNE_LATCH_SEQ, .LNE_TTI_TX_SM, .LNE_TTI_TX_PM, .LNE_TTI_EXP_SM, .LNE_TTI_EXP_PM, .LNE_TTI_RX_SM, .LNE_TTI_RX_PM, .LNE_CNT]
  | 0x2 => [.CRY_CTRL, .CRY_STATUS, .CRY_CACHE, .CRY_NOTICE, .CRY_SA_SWITCH, .CRY_PORT_CFG, .CRY_TX_SA]
  | 0x3 => [.PRS_COMMIT, .PRS_BANK_STATUS, .PRS_SLICE_STAT]
  | 0x4 => [.CLS_PORT_CFG, .CLS_STATUS, .CLS_PORT_USER, .CLS_RANGE_BOUND, .CLS_RANGE_SRC, .CLS_PROF_CTRL, .CLS_PROF_SEL, .CLS_MIR_CFG, .CLS_MIR_SAMPLE]
  | 0x5 => [.XMT_CTRL, .XMT_STATUS, .XMT_LEARN_STATUS, .XMT_FENCE_STATUS, .XMT_FENCE_OLDEST, .XMT_FENCE_WARN, .XMT_ECC_LOG, .XMT_TBL_CFG, .XMT_TBL_BASE, .XMT_TBL_SEED, .XMT_TBL_AGE, .XMT_TBL_TIME, .XMT_TBL_LIMIT, .XMT_TBL_ENTRIES, .XMT_TBL_CAM]
  | 0x6 => [.PPE_CTRL, .PPE_STATUS, .PPE_COMMIT, .PPE_BANK_STATUS, .PPE_PC_GLOBAL, .PPE_RETIRE, .PPE_FAULT_LOG, .PPE_ERR_LOG, .PPE_SLICE_CFG, .PPE_SLICE_STAT, .PPE_ROB_STATUS, .PPE_SLICE_RETIRED, .PPE_PORT_ENTRY, .PPE_PC_CYCLE, .PPE_PC_CFG, .PPE_PC_VAL, .PPE_PC_SNAP, .PPE_PC_SAMPLE, .PPE_PC_STATUS, .PPE_USER]
  | 0x40 => [.BUF_CTRL, .BUF_STATUS, .BUF_DROPS, .BUF_SPILL, .BUF_LOUPE_STATUS, .BUF_LOUPE_REPORT, .BUF_DFREE_LOG, .BUF_ERR_LOG, .BUF_POOL_CFG, .BUF_POOL_FREE, .BUF_POOL_MIN, .BUF_POOL_DROP]
  | 0x41 => [.TPL_CTRL, .TPL_STATUS, .TPL_LANE_STAT, .TPL_RETIRE]
  | 0x42 => [.HBM_CTRL, .HBM_STATUS, .HBM_ARB_CFG, .HBM_RETIRE, .HBM_ERR_LOG, .HBM_ERR_INFO, .HBM_READS, .HBM_STACK_CFG, .HBM_STACK_STATUS, .HBM_STACK_MIG, .HBM_STACK_CNT, .HBM_PCH_STATE]
  | 0x43 => [.QUE_CTRL, .QUE_STATUS, .QUE_DROPS, .QUE_FLUSH, .QUE_MC_STATUS, .QUE_PUNT_QID, .QUE_CFG_LIMIT, .QUE_CFG_SPILL, .QUE_CFG_TOTAL, .QUE_CFG_YELLOW]
  | 0x44 => [.SHP_STATUS, .SHP_POL_DROPS, .SHP_L0_HELD, .SHP_GALLEY_CTRL, .SHP_GALLEY_STATUS, .SHP_GALLEY_BASE_SEC, .SHP_GALLEY_BASE_NS, .SHP_GALLEY_CYCLE, .SHP_GALLEY_LEN]
  | 0x45 => [.FAB_CTRL, .FAB_STATUS, .FAB_CREDIT_CFG, .FAB_DISP_CFG, .FAB_REASM_CFG, .FAB_ELIM_CFG, .FAB_RX_DROPS, .FAB_ELIM_STAT, .FAB_LANE_LIVE, .FAB_LANE_RETIRE, .FAB_ERR_LOG, .FAB_GROUP_STATUS]
  | 0x52 => [.CNT_CTRL, .CNT_STATUS, .CNT_SNAP_PICA, .CNT_DROP_TOTAL, .CNT_CACHE, .CNT_ERR_LOG, .CNT_EXP_CFG, .CNT_EXP_RANGE, .CNT_EXP_ADDR, .CNT_EXP_STATUS]
  | 0x80 => [.TRN_CTRL, .TRN_STATUS, .TRN_PORT_STATUS, .TRN_PORT_RETIRE, .TRN_MOVE_CTRL, .TRN_MOVE_STATUS, .TRN_SCRUB, .TRN_ERR_LOG, .TRN_FACET_STAT, .TRN_TBL_CFG, .TRN_TBL_ENTRIES, .TRN_BLK_CFG, .TRN_BLK_FACET]
  | 0xC0 => [.MGT_CTRL, .MGT_STATUS, .MGT_IMAGE, .MGT_SECURITY, .MGT_PROOF, .MGT_UPDATE, .MGT_UPDATE_MISS]
  | 0xC1 => [.HST_ID, .HST_SERIAL, .HST_SESS_CMD, .HST_SESS_STATUS, .HST_SESS_DATA, .HST_CTRL, .HST_STATUS, .HST_HALT, .HST_SMB_CFG, .HST_WQ_CFG, .HST_CQ_CFG, .HST_WQ_STATUS, .HST_PUNT_DROPS, .HST_WQ_ADDR, .HST_CQ_ADDR, .HST_PUNT_ADDR, .HST_INJ_ADDR, .HST_PUNT_CFG, .HST_INJ_CFG, .HST_WQ_PI, .HST_WQ_CI, .HST_WQ_INVAL, .HST_CQ_PI, .HST_CQ_CI, .HST_PUNT_PI, .HST_PUNT_CI, .HST_INJ_CI, .HST_INJ_PI]
  | 0xC2 => [.DMA_CH_CFG, .DMA_CH_STATUS, .DMA_CH_RING, .DMA_CH_PI, .DMA_CH_CI]
  | 0xC3 => [.EVT_CTRL, .EVT_STATUS, .EVT_SUMMARY, .EVT_LOG_REC, .EVT_SW_SET, .EVT_GRP_PEND, .EVT_VEC_CFG, .EVT_SRC_CFG]
  | 0xC4 => [.PWR_CTRL, .PWR_STATUS, .PWR_THERM_CFG, .PWR_THERM_STATUS, .PWR_GRP_CFG, .PWR_GRP_STATUS, .PWR_THERM_SENSOR]
  | 0xC8 => [.TIM_CTRL, .TIM_STATUS, .TIM_PICA_NUM, .TIM_TOD_SEC, .TIM_TOD_NS, .TIM_INCR, .TIM_ADJ]
  | 0xC9 => [.RED_CTRL, .RED_STATUS, .RED_FAULT, .RED_FATAL, .RED_TWIN_CFG, .RED_TWIN_STATUS, .RED_TWIN_RETIRE, .RED_CB_CFG, .RED_CB_DROPS, .RED_SYNC, .RED_ROLE_PICA]
  | _ => []

/-- BAR0 offset of copy (i, j, k) of a register. -/
def Reg.addr (r : Reg) (i j k : Nat) : Nat :=
  r.info.base + i * r.info.s1 + j * r.info.s2 + k * r.info.s3

/-- The value a register has after a reset of its group (R6). -/
def Reg.resetValue (r : Reg) : W64 := BitVec.ofNat 64 r.info.reset

/-- A field of a register: its register and its bit range. -/
structure Fld where
  r : Reg
  hi : Nat
  lo : Nat
  deriving DecidableEq, Repr

/-- The number a field's bits spell in a register value. -/
def Fld.of (f : Fld) (v : W64) : Nat := (v.toNat >>> f.lo) % 2 ^ (f.hi + 1 - f.lo)

/-- A register value with one field replaced (the number is cut to the field's width). -/
def Fld.put (f : Fld) (v : W64) (x : Nat) : W64 :=
  BitVec.ofNat 64 (v.toNat - ((v.toNat >>> f.lo) % 2 ^ (f.hi + 1 - f.lo)) * 2 ^ f.lo
    + (x % 2 ^ (f.hi + 1 - f.lo)) * 2 ^ f.lo)

/-- The mask of a field's bits. -/
def Fld.mask (f : Fld) : Nat := (2 ^ (f.hi + 1 - f.lo) - 1) * 2 ^ f.lo

end Sys2Proof.Machine

namespace Sys2Proof.Machine.F

/-! TIM_CTRL (spec/02_pica_clocks_time.md) -/
def TIM_CTRL_PPS_WIDTH : Fld := ⟨.TIM_CTRL, 24, 15⟩
def TIM_CTRL_LOCK_NS : Fld := ⟨.TIM_CTRL, 14, 7⟩
def TIM_CTRL_HOST_LOCK : Fld := ⟨.TIM_CTRL, 1, 1⟩
def TIM_CTRL_SRC : Fld := ⟨.TIM_CTRL, 0, 0⟩

/-! TIM_STATUS (spec/02_pica_clocks_time.md) -/
def TIM_STATUS_RESET_EPOCH : Fld := ⟨.TIM_STATUS, 31, 16⟩
def TIM_STATUS_SLIPS : Fld := ⟨.TIM_STATUS, 15, 8⟩
def TIM_STATUS_TS_BAD : Fld := ⟨.TIM_STATUS, 3, 3⟩
def TIM_STATUS_TS_OVF : Fld := ⟨.TIM_STATUS, 2, 2⟩
def TIM_STATUS_PPS_SEEN : Fld := ⟨.TIM_STATUS, 1, 1⟩
def TIM_STATUS_LOCK : Fld := ⟨.TIM_STATUS, 0, 0⟩

/-! TIM_PICA_NUM (spec/02_pica_clocks_time.md) -/
def TIM_PICA_NUM_PICA : Fld := ⟨.TIM_PICA_NUM, 63, 0⟩

/-! TIM_TOD_SEC (spec/02_pica_clocks_time.md) -/
def TIM_TOD_SEC_SEC : Fld := ⟨.TIM_TOD_SEC, 47, 0⟩

/-! TIM_TOD_NS (spec/02_pica_clocks_time.md) -/
def TIM_TOD_NS_NS : Fld := ⟨.TIM_TOD_NS, 31, 0⟩

/-! TIM_INCR (spec/02_pica_clocks_time.md) -/
def TIM_INCR_INT_NS : Fld := ⟨.TIM_INCR, 39, 32⟩
def TIM_INCR_FRAC_NS : Fld := ⟨.TIM_INCR, 31, 0⟩

/-! TIM_ADJ (spec/02_pica_clocks_time.md) -/
def TIM_ADJ_STEP_NS : Fld := ⟨.TIM_ADJ, 31, 0⟩

/-! LNE_LANE_MAP (spec/03_line_ports.md) -/
def LNE_LANE_MAP_PHYS0_to_PHYS15 : Fld := ⟨.LNE_LANE_MAP, 63, 0⟩

/-! LNE_LANE_POL (spec/03_line_ports.md) -/
def LNE_LANE_POL_TX_INV : Fld := ⟨.LNE_LANE_POL, 31, 16⟩
def LNE_LANE_POL_RX_INV : Fld := ⟨.LNE_LANE_POL, 15, 0⟩

/-! LNE_LANE_TEST (spec/03_line_ports.md) -/
def LNE_LANE_TEST_GEN_EN : Fld := ⟨.LNE_LANE_TEST, 31, 31⟩
def LNE_LANE_TEST_CHK_EN : Fld := ⟨.LNE_LANE_TEST, 30, 30⟩
def LNE_LANE_TEST_PATTERN : Fld := ⟨.LNE_LANE_TEST, 29, 28⟩
def LNE_LANE_TEST_CHK_LOCK : Fld := ⟨.LNE_LANE_TEST, 27, 27⟩
def LNE_LANE_TEST_ERR : Fld := ⟨.LNE_LANE_TEST, 23, 0⟩

/-! LNE_SLICE_STATUS (spec/03_line_ports.md) -/
def LNE_SLICE_STATUS_CFG_ERR : Fld := ⟨.LNE_SLICE_STATUS, 0, 0⟩

/-! LNE_PORT_CFG (spec/03_line_ports.md) -/
def LNE_PORT_CFG_EN : Fld := ⟨.LNE_PORT_CFG, 31, 31⟩
def LNE_PORT_CFG_MODE : Fld := ⟨.LNE_PORT_CFG, 3, 0⟩

/-! LNE_PORT_CTRL (spec/03_line_ports.md) -/
def LNE_PORT_CTRL_RESTART : Fld := ⟨.LNE_PORT_CTRL, 31, 31⟩
def LNE_PORT_CTRL_TX_DISABLE : Fld := ⟨.LNE_PORT_CTRL, 30, 30⟩
def LNE_PORT_CTRL_LOOPBACK : Fld := ⟨.LNE_PORT_CTRL, 29, 28⟩
def LNE_PORT_CTRL_DOWN_ACT : Fld := ⟨.LNE_PORT_CTRL, 27, 27⟩
def LNE_PORT_CTRL_FORCE_RF : Fld := ⟨.LNE_PORT_CTRL, 26, 26⟩
def LNE_PORT_CTRL_MAX_FRAME : Fld := ⟨.LNE_PORT_CTRL, 14, 0⟩

/-! LNE_ALIGN_CFG (spec/03_line_ports.md) -/
def LNE_ALIGN_CFG_GFP_DELTA : Fld := ⟨.LNE_ALIGN_CFG, 14, 12⟩
def LNE_ALIGN_CFG_M : Fld := ⟨.LNE_ALIGN_CFG, 11, 8⟩
def LNE_ALIGN_CFG_N : Fld := ⟨.LNE_ALIGN_CFG, 6, 4⟩

/-! LNE_PORT_STATUS (spec/03_line_ports.md) -/
def LNE_PORT_STATUS_LINK_UP : Fld := ⟨.LNE_PORT_STATUS, 31, 31⟩
def LNE_PORT_STATUS_ALIGN_STATE : Fld := ⟨.LNE_PORT_STATUS, 30, 28⟩
def LNE_PORT_STATUS_CANDIDATES : Fld := ⟨.LNE_PORT_STATUS, 27, 25⟩
def LNE_PORT_STATUS_RESTARTS : Fld := ⟨.LNE_PORT_STATUS, 15, 8⟩
def LNE_PORT_STATUS_SKEW_NS : Fld := ⟨.LNE_PORT_STATUS, 7, 0⟩

/-! Bit numbers of LNE_DEFECT_RAW, _RPT, _STICKY and _MASK, which share one layout (spec/03_line_ports.md) -/
def DEFECT_PM_DEG : Nat := 20
def DEFECT_SM_DEG : Nat := 19
def DEFECT_PM_BDI : Nat := 18
def DEFECT_SM_BDI : Nat := 17
def DEFECT_GFP_CSF : Nat := 16
def DEFECT_GFP_LFD : Nat := 15
def DEFECT_PLM : Nat := 14
def DEFECT_PM_TIM : Nat := 13
def DEFECT_SM_TIM : Nat := 12
def DEFECT_ODU_OCI : Nat := 11
def DEFECT_ODU_LCK : Nat := 10
def DEFECT_ODU_AIS : Nat := 9
def DEFECT_RF : Nat := 8
def DEFECT_LF : Nat := 7
def DEFECT_FEC_DEG : Nat := 6
def DEFECT_HI_SER : Nat := 5
def DEFECT_LODSK : Nat := 4
def DEFECT_LOM : Nat := 3
def DEFECT_LOA : Nat := 2
def DEFECT_LOL : Nat := 1
def DEFECT_LOS : Nat := 0




/-! LNE_TS_ADJ (spec/03_line_ports.md) -/
def LNE_TS_ADJ_TX_ADJ : Fld := ⟨.LNE_TS_ADJ, 31, 16⟩
def LNE_TS_ADJ_RX_ADJ : Fld := ⟨.LNE_TS_ADJ, 15, 0⟩

/-! LNE_OTN_CFG (spec/03_line_ports.md) -/
def LNE_OTN_CFG_DEG_SEC : Fld := ⟨.LNE_OTN_CFG, 31, 28⟩
def LNE_OTN_CFG_DEG_THR : Fld := ⟨.LNE_OTN_CFG, 27, 16⟩
def LNE_OTN_CFG_EXP_PT : Fld := ⟨.LNE_OTN_CFG, 15, 8⟩
def LNE_OTN_CFG_SM_TIM_MODE : Fld := ⟨.LNE_OTN_CFG, 7, 6⟩
def LNE_OTN_CFG_PM_TIM_MODE : Fld := ⟨.LNE_OTN_CFG, 5, 4⟩
def LNE_OTN_CFG_TIM_ACT : Fld := ⟨.LNE_OTN_CFG, 3, 3⟩

/-! LNE_FEC_DEG (spec/03_line_ports.md) -/
def LNE_FEC_DEG_DEG_SEC : Fld := ⟨.LNE_FEC_DEG, 31, 28⟩
def LNE_FEC_DEG_SET_THR : Fld := ⟨.LNE_FEC_DEG, 27, 0⟩

/-! LNE_TX_TS (spec/03_line_ports.md) -/
def LNE_TX_TS_VALID : Fld := ⟨.LNE_TX_TS, 31, 31⟩
def LNE_TX_TS_COUNT : Fld := ⟨.LNE_TX_TS, 22, 16⟩
def LNE_TX_TS_TAG : Fld := ⟨.LNE_TX_TS, 15, 0⟩

/-! LNE_LATCH_SEQ (spec/03_line_ports.md) -/
def LNE_LATCH_SEQ_SEQ : Fld := ⟨.LNE_LATCH_SEQ, 31, 0⟩

/-! CRY_CTRL (spec/04_link_encryption.md) -/
def CRY_CTRL_ESP_EN : Fld := ⟨.CRY_CTRL, 31, 31⟩

/-! CRY_STATUS (spec/04_link_encryption.md) -/
def CRY_STATUS_ZERO_DONE : Fld := ⟨.CRY_STATUS, 31, 31⟩
def CRY_STATUS_NOTICE_OVF : Fld := ⟨.CRY_STATUS, 2, 2⟩
def CRY_STATUS_ESP_OVL : Fld := ⟨.CRY_STATUS, 1, 1⟩
def CRY_STATUS_CFG_ERR : Fld := ⟨.CRY_STATUS, 0, 0⟩

/-! CRY_CACHE (spec/04_link_encryption.md) -/
def CRY_CACHE_PINNED : Fld := ⟨.CRY_CACHE, 30, 16⟩
def CRY_CACHE_MISSES : Fld := ⟨.CRY_CACHE, 15, 0⟩

/-! CRY_NOTICE (spec/04_link_encryption.md) -/
def CRY_NOTICE_VALID : Fld := ⟨.CRY_NOTICE, 31, 31⟩
def CRY_NOTICE_KIND : Fld := ⟨.CRY_NOTICE, 30, 29⟩
def CRY_NOTICE_SA : Fld := ⟨.CRY_NOTICE, 17, 0⟩

/-! CRY_SA_SWITCH (spec/04_link_encryption.md) -/
def CRY_SA_SWITCH_SA : Fld := ⟨.CRY_SA_SWITCH, 17, 0⟩

/-! CRY_PORT_CFG (spec/04_link_encryption.md) -/
def CRY_PORT_CFG_MACSEC_EN : Fld := ⟨.CRY_PORT_CFG, 31, 31⟩
def CRY_PORT_CFG_VALIDATE : Fld := ⟨.CRY_PORT_CFG, 30, 29⟩
def CRY_PORT_CFG_PROTECT : Fld := ⟨.CRY_PORT_CFG, 28, 28⟩
def CRY_PORT_CFG_ENCRYPT : Fld := ⟨.CRY_PORT_CFG, 27, 27⟩
def CRY_PORT_CFG_CONF_OFFSET : Fld := ⟨.CRY_PORT_CFG, 26, 25⟩
def CRY_PORT_CFG_INCLUDE_SCI : Fld := ⟨.CRY_PORT_CFG, 24, 24⟩
def CRY_PORT_CFG_ESP_IN_EN : Fld := ⟨.CRY_PORT_CFG, 23, 23⟩
def CRY_PORT_CFG_REPLAY_EN : Fld := ⟨.CRY_PORT_CFG, 22, 22⟩
def CRY_PORT_CFG_REPLAY_WIN : Fld := ⟨.CRY_PORT_CFG, 20, 10⟩

/-! CRY_TX_SA (spec/04_link_encryption.md) -/
def CRY_TX_SA_EN : Fld := ⟨.CRY_TX_SA, 31, 31⟩
def CRY_TX_SA_SA : Fld := ⟨.CRY_TX_SA, 17, 0⟩

/-! PRS_COMMIT (spec/05_parse_graph.md) -/
def PRS_COMMIT_SLICES : Fld := ⟨.PRS_COMMIT, 7, 0⟩

/-! PRS_BANK_STATUS (spec/05_parse_graph.md) -/
def PRS_BANK_STATUS_CFG_ERR : Fld := ⟨.PRS_BANK_STATUS, 31, 31⟩
def PRS_BANK_STATUS_CHECK_CODE : Fld := ⟨.PRS_BANK_STATUS, 30, 27⟩
def PRS_BANK_STATUS_CHECK_SLICE : Fld := ⟨.PRS_BANK_STATUS, 26, 24⟩
def PRS_BANK_STATUS_ACTIVE : Fld := ⟨.PRS_BANK_STATUS, 15, 8⟩
def PRS_BANK_STATUS_PENDING : Fld := ⟨.PRS_BANK_STATUS, 7, 0⟩

/-! PRS_SLICE_STAT (spec/05_parse_graph.md) -/
def PRS_SLICE_STAT_OVER_PICAS : Fld := ⟨.PRS_SLICE_STAT, 31, 16⟩
def PRS_SLICE_STAT_VISIT_MAX : Fld := ⟨.PRS_SLICE_STAT, 5, 0⟩

/-! CLS_PORT_CFG (spec/05_parse_graph.md) -/
def CLS_PORT_CFG_PROFILE : Fld := ⟨.CLS_PORT_CFG, 31, 27⟩
def CLS_PORT_CFG_DEF_ACT : Fld := ⟨.CLS_PORT_CFG, 26, 25⟩
def CLS_PORT_CFG_DEF_REASON : Fld := ⟨.CLS_PORT_CFG, 24, 15⟩
def CLS_PORT_CFG_DEF_RING : Fld := ⟨.CLS_PORT_CFG, 14, 11⟩
def CLS_PORT_CFG_DEF_MIRROR : Fld := ⟨.CLS_PORT_CFG, 10, 5⟩

/-! CLS_STATUS (spec/05_parse_graph.md) -/
def CLS_STATUS_MIR_SKIP : Fld := ⟨.CLS_STATUS, 31, 16⟩
def CLS_STATUS_CFG_ERR : Fld := ⟨.CLS_STATUS, 0, 0⟩

/-! CLS_PORT_USER (spec/05_parse_graph.md) -/
def CLS_PORT_USER_USER : Fld := ⟨.CLS_PORT_USER, 31, 0⟩

/-! CLS_RANGE_BOUND (spec/05_parse_graph.md) -/
def CLS_RANGE_BOUND_HI : Fld := ⟨.CLS_RANGE_BOUND, 31, 16⟩
def CLS_RANGE_BOUND_LO : Fld := ⟨.CLS_RANGE_BOUND, 15, 0⟩

/-! CLS_RANGE_SRC (spec/05_parse_graph.md) -/
def CLS_RANGE_SRC_EN : Fld := ⟨.CLS_RANGE_SRC, 31, 31⟩
def CLS_RANGE_SRC_SRC : Fld := ⟨.CLS_RANGE_SRC, 5, 0⟩

/-! CLS_PROF_CTRL (spec/05_parse_graph.md) -/
def CLS_PROF_CTRL_S0_EN : Fld := ⟨.CLS_PROF_CTRL, 31, 31⟩
def CLS_PROF_CTRL_S0_WIDTH : Fld := ⟨.CLS_PROF_CTRL, 30, 29⟩
def CLS_PROF_CTRL_S0_TABLE : Fld := ⟨.CLS_PROF_CTRL, 28, 23⟩
def CLS_PROF_CTRL_S0_START : Fld := ⟨.CLS_PROF_CTRL, 22, 17⟩
def CLS_PROF_CTRL_S1_EN : Fld := ⟨.CLS_PROF_CTRL, 16, 16⟩
def CLS_PROF_CTRL_S1_WIDTH : Fld := ⟨.CLS_PROF_CTRL, 15, 14⟩
def CLS_PROF_CTRL_S1_TABLE : Fld := ⟨.CLS_PROF_CTRL, 13, 8⟩
def CLS_PROF_CTRL_S1_START : Fld := ⟨.CLS_PROF_CTRL, 7, 2⟩
def CLS_PROF_CTRL_ERR_ACT : Fld := ⟨.CLS_PROF_CTRL, 1, 1⟩

/-! CLS_PROF_SEL (spec/05_parse_graph.md) -/
def CLS_PROF_SEL_SEL_4j : Fld := ⟨.CLS_PROF_SEL, 31, 24⟩
def CLS_PROF_SEL_SEL_4jP1 : Fld := ⟨.CLS_PROF_SEL, 23, 16⟩
def CLS_PROF_SEL_SEL_4jP2 : Fld := ⟨.CLS_PROF_SEL, 15, 8⟩
def CLS_PROF_SEL_SEL_4jP3 : Fld := ⟨.CLS_PROF_SEL, 7, 0⟩

/-! CLS_MIR_CFG (spec/05_parse_graph.md) -/
def CLS_MIR_CFG_EN : Fld := ⟨.CLS_MIR_CFG, 31, 31⟩
def CLS_MIR_CFG_TRUNC : Fld := ⟨.CLS_MIR_CFG, 30, 23⟩
def CLS_MIR_CFG_QID : Fld := ⟨.CLS_MIR_CFG, 19, 0⟩

/-! CLS_MIR_SAMPLE (spec/05_parse_graph.md) -/
def CLS_MIR_SAMPLE_N : Fld := ⟨.CLS_MIR_SAMPLE, 15, 0⟩

/-! XMT_CTRL (spec/06_exact_match.md) -/
def XMT_CTRL_SWEEP_EN : Fld := ⟨.XMT_CTRL, 31, 31⟩
def XMT_CTRL_AGE_REMOVE : Fld := ⟨.XMT_CTRL, 30, 30⟩

/-! XMT_STATUS (spec/06_exact_match.md) -/
def XMT_STATUS_CLEAR_DONE : Fld := ⟨.XMT_STATUS, 31, 31⟩
def XMT_STATUS_ECC_UNCORR : Fld := ⟨.XMT_STATUS, 3, 3⟩
def XMT_STATUS_NOTICE_OVF : Fld := ⟨.XMT_STATUS, 2, 2⟩
def XMT_STATUS_LEARN_OVF : Fld := ⟨.XMT_STATUS, 1, 1⟩
def XMT_STATUS_CFG_ERR : Fld := ⟨.XMT_STATUS, 0, 0⟩

/-! XMT_LEARN_STATUS (spec/06_exact_match.md) -/
def XMT_LEARN_STATUS_DROPS : Fld := ⟨.XMT_LEARN_STATUS, 31, 16⟩
def XMT_LEARN_STATUS_MOVES : Fld := ⟨.XMT_LEARN_STATUS, 15, 8⟩
def XMT_LEARN_STATUS_STATIC_CONFLICT : Fld := ⟨.XMT_LEARN_STATUS, 7, 0⟩

/-! XMT_FENCE_STATUS (spec/06_exact_match.md) -/
def XMT_FENCE_STATUS_ISSUED : Fld := ⟨.XMT_FENCE_STATUS, 31, 24⟩
def XMT_FENCE_STATUS_DONE : Fld := ⟨.XMT_FENCE_STATUS, 23, 16⟩
def XMT_FENCE_STATUS_OUTSTANDING : Fld := ⟨.XMT_FENCE_STATUS, 15, 8⟩
def XMT_FENCE_STATUS_SLOW : Fld := ⟨.XMT_FENCE_STATUS, 0, 0⟩

/-! XMT_FENCE_OLDEST (spec/06_exact_match.md) -/
def XMT_FENCE_OLDEST_PICA : Fld := ⟨.XMT_FENCE_OLDEST, 63, 0⟩

/-! XMT_FENCE_WARN (spec/06_exact_match.md) -/
def XMT_FENCE_WARN_US : Fld := ⟨.XMT_FENCE_WARN, 23, 0⟩

/-! XMT_ECC_LOG (spec/06_exact_match.md) -/
def XMT_ECC_LOG_LOCATION : Fld := ⟨.XMT_ECC_LOG, 63, 0⟩

/-! XMT_TBL_CFG (spec/06_exact_match.md) -/
def XMT_TBL_CFG_EN : Fld := ⟨.XMT_TBL_CFG, 31, 31⟩
def XMT_TBL_CFG_STORE : Fld := ⟨.XMT_TBL_CFG, 30, 30⟩
def XMT_TBL_CFG_LEARN : Fld := ⟨.XMT_TBL_CFG, 29, 29⟩
def XMT_TBL_CFG_HASH_A : Fld := ⟨.XMT_TBL_CFG, 28, 27⟩
def XMT_TBL_CFG_HASH_B : Fld := ⟨.XMT_TBL_CFG, 26, 25⟩
def XMT_TBL_CFG_SIZE_LOG2 : Fld := ⟨.XMT_TBL_CFG, 24, 20⟩
def XMT_TBL_CFG_KEY_BITS : Fld := ⟨.XMT_TBL_CFG, 7, 0⟩

/-! XMT_TBL_BASE (spec/06_exact_match.md) -/
def XMT_TBL_BASE_BASE : Fld := ⟨.XMT_TBL_BASE, 21, 0⟩

/-! XMT_TBL_SEED (spec/06_exact_match.md) -/
def XMT_TBL_SEED_SEED : Fld := ⟨.XMT_TBL_SEED, 31, 0⟩

/-! XMT_TBL_AGE (spec/06_exact_match.md) -/
def XMT_TBL_AGE_TICK_MS : Fld := ⟨.XMT_TBL_AGE, 31, 16⟩
def XMT_TBL_AGE_SWEEP_TICKS : Fld := ⟨.XMT_TBL_AGE, 14, 0⟩

/-! XMT_TBL_TIME (spec/06_exact_match.md) -/
def XMT_TBL_TIME_TIMEOUT : Fld := ⟨.XMT_TBL_TIME, 30, 16⟩
def XMT_TBL_TIME_NOW : Fld := ⟨.XMT_TBL_TIME, 15, 0⟩

/-! XMT_TBL_LIMIT (spec/06_exact_match.md) -/
def XMT_TBL_LIMIT_LIMIT : Fld := ⟨.XMT_TBL_LIMIT, 24, 0⟩

/-! XMT_TBL_ENTRIES (spec/06_exact_match.md) -/
def XMT_TBL_ENTRIES_ENTRIES : Fld := ⟨.XMT_TBL_ENTRIES, 24, 0⟩

/-! XMT_TBL_CAM (spec/06_exact_match.md) -/
def XMT_TBL_CAM_CAM_USED : Fld := ⟨.XMT_TBL_CAM, 16, 0⟩

/-! TRN_CTRL (spec/07_ternary_die.md) -/
def TRN_CTRL_RETIRE_THR : Fld := ⟨.TRN_CTRL, 15, 8⟩
def TRN_CTRL_SCRUB_RATE : Fld := ⟨.TRN_CTRL, 1, 0⟩

/-! TRN_STATUS (spec/07_ternary_die.md) -/
def TRN_STATUS_CLEAR_DONE : Fld := ⟨.TRN_STATUS, 31, 31⟩
def TRN_STATUS_RESULT_UNCORR : Fld := ⟨.TRN_STATUS, 5, 5⟩
def TRN_STATUS_SHADOW_UNCORR : Fld := ⟨.TRN_STATUS, 4, 4⟩
def TRN_STATUS_VERIFY_FAIL : Fld := ⟨.TRN_STATUS, 3, 3⟩
def TRN_STATUS_MOVE_REFUSED : Fld := ⟨.TRN_STATUS, 2, 2⟩
def TRN_STATUS_PORT_RETIRED : Fld := ⟨.TRN_STATUS, 1, 1⟩
def TRN_STATUS_CFG_ERR : Fld := ⟨.TRN_STATUS, 0, 0⟩

/-! TRN_PORT_STATUS (spec/07_ternary_die.md) -/
def TRN_PORT_STATUS_RETIRED : Fld := ⟨.TRN_PORT_STATUS, 15, 0⟩

/-! TRN_PORT_RETIRE (spec/07_ternary_die.md) -/
def TRN_PORT_RETIRE_PORT : Fld := ⟨.TRN_PORT_RETIRE, 15, 0⟩

/-! TRN_MOVE_CTRL (spec/07_ternary_die.md) -/
def TRN_MOVE_CTRL_START : Fld := ⟨.TRN_MOVE_CTRL, 63, 63⟩
def TRN_MOVE_CTRL_COUNT_M1 : Fld := ⟨.TRN_MOVE_CTRL, 59, 48⟩
def TRN_MOVE_CTRL_DST : Fld := ⟨.TRN_MOVE_CTRL, 45, 24⟩
def TRN_MOVE_CTRL_SRC : Fld := ⟨.TRN_MOVE_CTRL, 21, 0⟩

/-! TRN_MOVE_STATUS (spec/07_ternary_die.md) -/
def TRN_MOVE_STATUS_BUSY : Fld := ⟨.TRN_MOVE_STATUS, 31, 31⟩
def TRN_MOVE_STATUS_CODE : Fld := ⟨.TRN_MOVE_STATUS, 30, 28⟩
def TRN_MOVE_STATUS_MOVED : Fld := ⟨.TRN_MOVE_STATUS, 12, 0⟩

/-! TRN_SCRUB (spec/07_ternary_die.md) -/
def TRN_SCRUB_FIXED : Fld := ⟨.TRN_SCRUB, 31, 16⟩
def TRN_SCRUB_PASSES : Fld := ⟨.TRN_SCRUB, 15, 0⟩

/-! TRN_ERR_LOG (spec/07_ternary_die.md) -/
def TRN_ERR_LOG_LOCATION : Fld := ⟨.TRN_ERR_LOG, 63, 0⟩

/-! TRN_FACET_STAT (spec/07_ternary_die.md) -/
def TRN_FACET_STAT_MULTI_PASS : Fld := ⟨.TRN_FACET_STAT, 31, 16⟩
def TRN_FACET_STAT_AVG_BLOCKS : Fld := ⟨.TRN_FACET_STAT, 10, 0⟩

/-! TRN_TBL_CFG (spec/07_ternary_die.md) -/
def TRN_TBL_CFG_EN : Fld := ⟨.TRN_TBL_CFG, 31, 31⟩
def TRN_TBL_CFG_WIDTH : Fld := ⟨.TRN_TBL_CFG, 30, 29⟩
def TRN_TBL_CFG_MODE : Fld := ⟨.TRN_TBL_CFG, 28, 28⟩
def TRN_TBL_CFG_KIND : Fld := ⟨.TRN_TBL_CFG, 27, 27⟩
def TRN_TBL_CFG_FACET_BITS : Fld := ⟨.TRN_TBL_CFG, 26, 22⟩
def TRN_TBL_CFG_FACET_OFF : Fld := ⟨.TRN_TBL_CFG, 21, 13⟩

/-! TRN_TBL_ENTRIES (spec/07_ternary_die.md) -/
def TRN_TBL_ENTRIES_ENTRIES : Fld := ⟨.TRN_TBL_ENTRIES, 22, 0⟩

/-! TRN_BLK_CFG (spec/07_ternary_die.md) -/
def TRN_BLK_CFG_EN : Fld := ⟨.TRN_BLK_CFG, 31, 31⟩
def TRN_BLK_CFG_TABLE : Fld := ⟨.TRN_BLK_CFG, 29, 24⟩
def TRN_BLK_CFG_USED : Fld := ⟨.TRN_BLK_CFG, 12, 0⟩

/-! TRN_BLK_FACET (spec/07_ternary_die.md) -/
def TRN_BLK_FACET_FMASK : Fld := ⟨.TRN_BLK_FACET, 31, 16⟩
def TRN_BLK_FACET_FVAL : Fld := ⟨.TRN_BLK_FACET, 15, 0⟩

/-! PPE_CTRL (spec/08_packet_engines.md) -/
def PPE_CTRL_RETIRE_THR : Fld := ⟨.PPE_CTRL, 15, 8⟩

/-! PPE_STATUS (spec/08_packet_engines.md) -/
def PPE_STATUS_HW_ERR : Fld := ⟨.PPE_STATUS, 4, 4⟩
def PPE_STATUS_RETIRED : Fld := ⟨.PPE_STATUS, 3, 3⟩
def PPE_STATUS_FAULT : Fld := ⟨.PPE_STATUS, 2, 2⟩
def PPE_STATUS_OVERRUN : Fld := ⟨.PPE_STATUS, 1, 1⟩
def PPE_STATUS_CFG_ERR : Fld := ⟨.PPE_STATUS, 0, 0⟩

/-! PPE_COMMIT (spec/08_packet_engines.md) -/
def PPE_COMMIT_SLICES : Fld := ⟨.PPE_COMMIT, 7, 0⟩

/-! PPE_BANK_STATUS (spec/08_packet_engines.md) -/
def PPE_BANK_STATUS_CHECK_CODE : Fld := ⟨.PPE_BANK_STATUS, 31, 28⟩
def PPE_BANK_STATUS_CHECK_SLICE : Fld := ⟨.PPE_BANK_STATUS, 27, 25⟩
def PPE_BANK_STATUS_ACTIVE : Fld := ⟨.PPE_BANK_STATUS, 15, 8⟩
def PPE_BANK_STATUS_PENDING : Fld := ⟨.PPE_BANK_STATUS, 7, 0⟩

/-! PPE_PC_GLOBAL (spec/08_packet_engines.md) -/
def PPE_PC_GLOBAL_FREEZE : Fld := ⟨.PPE_PC_GLOBAL, 31, 31⟩
def PPE_PC_GLOBAL_SNAPSHOT : Fld := ⟨.PPE_PC_GLOBAL, 30, 30⟩
def PPE_PC_GLOBAL_SNAP_DONE : Fld := ⟨.PPE_PC_GLOBAL, 29, 29⟩

/-! PPE_RETIRE (spec/08_packet_engines.md) -/
def PPE_RETIRE_GO : Fld := ⟨.PPE_RETIRE, 31, 31⟩
def PPE_RETIRE_ENGINE : Fld := ⟨.PPE_RETIRE, 8, 0⟩

/-! PPE_FAULT_LOG (spec/08_packet_engines.md) -/
def PPE_FAULT_LOG_CODE : Fld := ⟨.PPE_FAULT_LOG, 63, 59⟩
def PPE_FAULT_LOG_THREAD : Fld := ⟨.PPE_FAULT_LOG, 55, 44⟩
def PPE_FAULT_LOG_PC : Fld := ⟨.PPE_FAULT_LOG, 31, 16⟩

/-! PPE_ERR_LOG (spec/08_packet_engines.md) -/
def PPE_ERR_LOG_LOCATION : Fld := ⟨.PPE_ERR_LOG, 63, 0⟩

/-! PPE_SLICE_CFG (spec/08_packet_engines.md) -/
def PPE_SLICE_CFG_DEADLINE : Fld := ⟨.PPE_SLICE_CFG, 7, 0⟩

/-! PPE_SLICE_STAT (spec/08_packet_engines.md) -/
def PPE_SLICE_STAT_OVERRUNS : Fld := ⟨.PPE_SLICE_STAT, 31, 16⟩
def PPE_SLICE_STAT_FAULTS : Fld := ⟨.PPE_SLICE_STAT, 15, 8⟩
def PPE_SLICE_STAT_COPY_CAP : Fld := ⟨.PPE_SLICE_STAT, 7, 0⟩

/-! PPE_ROB_STATUS (spec/08_packet_engines.md) -/
def PPE_ROB_STATUS_ROB_USED : Fld := ⟨.PPE_ROB_STATUS, 27, 16⟩
def PPE_ROB_STATUS_THREADS_BUSY : Fld := ⟨.PPE_ROB_STATUS, 9, 0⟩

/-! PPE_SLICE_RETIRED (spec/08_packet_engines.md) -/
def PPE_SLICE_RETIRED_ENGINES : Fld := ⟨.PPE_SLICE_RETIRED, 63, 0⟩

/-! PPE_PORT_ENTRY (spec/08_packet_engines.md) -/
def PPE_PORT_ENTRY_ENTRY : Fld := ⟨.PPE_PORT_ENTRY, 3, 0⟩

/-! PPE_PC_CYCLE (spec/08_packet_engines.md) -/
def PPE_PC_CYCLE_OVF : Fld := ⟨.PPE_PC_CYCLE, 63, 63⟩
def PPE_PC_CYCLE_CYCLES : Fld := ⟨.PPE_PC_CYCLE, 47, 0⟩

/-! PPE_PC_CFG (spec/08_packet_engines.md) -/
def PPE_PC_CFG_EN : Fld := ⟨.PPE_PC_CFG, 31, 31⟩
def PPE_PC_CFG_MODE : Fld := ⟨.PPE_PC_CFG, 30, 30⟩
def PPE_PC_CFG_USER_READ : Fld := ⟨.PPE_PC_CFG, 29, 29⟩
def PPE_PC_CFG_PROG_READ : Fld := ⟨.PPE_PC_CFG, 28, 28⟩
def PPE_PC_CFG_SAMPLE : Fld := ⟨.PPE_PC_CFG, 27, 27⟩
def PPE_PC_CFG_ENGINES : Fld := ⟨.PPE_PC_CFG, 23, 8⟩
def PPE_PC_CFG_EVENT : Fld := ⟨.PPE_PC_CFG, 7, 0⟩

/-! PPE_PC_VAL (spec/08_packet_engines.md) -/
def PPE_PC_VAL_OVF : Fld := ⟨.PPE_PC_VAL, 63, 63⟩
def PPE_PC_VAL_VALUE : Fld := ⟨.PPE_PC_VAL, 47, 0⟩

/-! PPE_PC_SNAP (spec/08_packet_engines.md) -/
def PPE_PC_SNAP_OVF : Fld := ⟨.PPE_PC_SNAP, 63, 63⟩
def PPE_PC_SNAP_VALUE : Fld := ⟨.PPE_PC_SNAP, 47, 0⟩

/-! PPE_PC_SAMPLE (spec/08_packet_engines.md) -/
def PPE_PC_SAMPLE_PC : Fld := ⟨.PPE_PC_SAMPLE, 63, 48⟩
def PPE_PC_SAMPLE_ENGINE : Fld := ⟨.PPE_PC_SAMPLE, 47, 44⟩
def PPE_PC_SAMPLE_THREAD : Fld := ⟨.PPE_PC_SAMPLE, 43, 41⟩
def PPE_PC_SAMPLE_COUNTER : Fld := ⟨.PPE_PC_SAMPLE, 40, 38⟩
def PPE_PC_SAMPLE_VALID : Fld := ⟨.PPE_PC_SAMPLE, 31, 31⟩

/-! PPE_PC_STATUS (spec/08_packet_engines.md) -/
def PPE_PC_STATUS_SAMPLE_LOST : Fld := ⟨.PPE_PC_STATUS, 5, 5⟩
def PPE_PC_STATUS_SAMPLES : Fld := ⟨.PPE_PC_STATUS, 4, 0⟩

/-! BUF_CTRL (spec/09_buffer_pools.md) -/
def BUF_CTRL_LOUPE_EN : Fld := ⟨.BUF_CTRL, 31, 31⟩
def BUF_CTRL_RECLAIM : Fld := ⟨.BUF_CTRL, 30, 30⟩
def BUF_CTRL_AUDIT_MS : Fld := ⟨.BUF_CTRL, 29, 20⟩
def BUF_CTRL_BUILD : Fld := ⟨.BUF_CTRL, 19, 19⟩
def BUF_CTRL_MAX_FRAME : Fld := ⟨.BUF_CTRL, 14, 0⟩

/-! BUF_STATUS (spec/09_buffer_pools.md) -/
def BUF_STATUS_CFG_DONE : Fld := ⟨.BUF_STATUS, 31, 31⟩
def BUF_STATUS_ECC_UNCORR : Fld := ⟨.BUF_STATUS, 6, 6⟩
def BUF_STATUS_DFREE : Fld := ⟨.BUF_STATUS, 5, 5⟩
def BUF_STATUS_LEAK : Fld := ⟨.BUF_STATUS, 4, 4⟩
def BUF_STATUS_MISMATCH : Fld := ⟨.BUF_STATUS, 3, 3⟩
def BUF_STATUS_NO_BUF : Fld := ⟨.BUF_STATUS, 2, 2⟩
def BUF_STATUS_SPILL_FULL : Fld := ⟨.BUF_STATUS, 1, 1⟩
def BUF_STATUS_CFG_ERR : Fld := ⟨.BUF_STATUS, 0, 0⟩

/-! BUF_DROPS (spec/09_buffer_pools.md) -/
def BUF_DROPS_CHAIN : Fld := ⟨.BUF_DROPS, 31, 16⟩
def BUF_DROPS_PAIR_LOST : Fld := ⟨.BUF_DROPS, 15, 0⟩

/-! BUF_SPILL (spec/09_buffer_pools.md) -/
def BUF_SPILL_TOTAL : Fld := ⟨.BUF_SPILL, 55, 32⟩
def BUF_SPILL_FREE : Fld := ⟨.BUF_SPILL, 23, 0⟩

/-! BUF_LOUPE_STATUS (spec/09_buffer_pools.md) -/
def BUF_LOUPE_STATUS_AUDITS : Fld := ⟨.BUF_LOUPE_STATUS, 31, 16⟩
def BUF_LOUPE_STATUS_BUSY : Fld := ⟨.BUF_LOUPE_STATUS, 15, 15⟩
def BUF_LOUPE_STATUS_REPORTS : Fld := ⟨.BUF_LOUPE_STATUS, 14, 8⟩

/-! BUF_LOUPE_REPORT (spec/09_buffer_pools.md) -/
def BUF_LOUPE_REPORT_AUDIT : Fld := ⟨.BUF_LOUPE_REPORT, 63, 48⟩
def BUF_LOUPE_REPORT_VALID : Fld := ⟨.BUF_LOUPE_REPORT, 31, 31⟩
def BUF_LOUPE_REPORT_KIND : Fld := ⟨.BUF_LOUPE_REPORT, 30, 28⟩
def BUF_LOUPE_REPORT_HANDLE : Fld := ⟨.BUF_LOUPE_REPORT, 23, 0⟩

/-! BUF_DFREE_LOG (spec/09_buffer_pools.md) -/
def BUF_DFREE_LOG_COUNT : Fld := ⟨.BUF_DFREE_LOG, 31, 24⟩
def BUF_DFREE_LOG_HANDLE : Fld := ⟨.BUF_DFREE_LOG, 23, 0⟩

/-! BUF_ERR_LOG (spec/09_buffer_pools.md) -/
def BUF_ERR_LOG_LOCATION : Fld := ⟨.BUF_ERR_LOG, 63, 0⟩

/-! BUF_POOL_CFG (spec/09_buffer_pools.md) -/
def BUF_POOL_CFG_EN : Fld := ⟨.BUF_POOL_CFG, 31, 31⟩
def BUF_POOL_CFG_BORROW : Fld := ⟨.BUF_POOL_CFG, 30, 30⟩
def BUF_POOL_CFG_SIZE : Fld := ⟨.BUF_POOL_CFG, 29, 27⟩
def BUF_POOL_CFG_COUNT : Fld := ⟨.BUF_POOL_CFG, 20, 0⟩

/-! BUF_POOL_FREE (spec/09_buffer_pools.md) -/
def BUF_POOL_FREE_FREE : Fld := ⟨.BUF_POOL_FREE, 20, 0⟩

/-! BUF_POOL_MIN (spec/09_buffer_pools.md) -/
def BUF_POOL_MIN_MIN : Fld := ⟨.BUF_POOL_MIN, 20, 0⟩

/-! BUF_POOL_DROP (spec/09_buffer_pools.md) -/
def BUF_POOL_DROP_NO_BUF : Fld := ⟨.BUF_POOL_DROP, 31, 16⟩
def BUF_POOL_DROP_BORROWED : Fld := ⟨.BUF_POOL_DROP, 15, 0⟩

/-! TPL_CTRL (spec/09_buffer_pools.md) -/
def TPL_CTRL_RETIRE_THR : Fld := ⟨.TPL_CTRL, 15, 8⟩

/-! TPL_STATUS (spec/09_buffer_pools.md) -/
def TPL_STATUS_DEGRADED_QF : Fld := ⟨.TPL_STATUS, 9, 9⟩
def TPL_STATUS_DEGRADED_FQ : Fld := ⟨.TPL_STATUS, 8, 8⟩
def TPL_STATUS_RETIRED : Fld := ⟨.TPL_STATUS, 7, 7⟩
def TPL_STATUS_LIVE_QF : Fld := ⟨.TPL_STATUS, 5, 3⟩
def TPL_STATUS_LIVE_FQ : Fld := ⟨.TPL_STATUS, 2, 0⟩

/-! TPL_LANE_STAT (spec/09_buffer_pools.md) -/
def TPL_LANE_STAT_DISAGREE : Fld := ⟨.TPL_LANE_STAT, 31, 16⟩
def TPL_LANE_STAT_REPLAY : Fld := ⟨.TPL_LANE_STAT, 15, 0⟩

/-! TPL_RETIRE (spec/09_buffer_pools.md) -/
def TPL_RETIRE_QF : Fld := ⟨.TPL_RETIRE, 5, 3⟩
def TPL_RETIRE_FQ : Fld := ⟨.TPL_RETIRE, 2, 0⟩

/-! HBM_CTRL (spec/10_hbm_controller.md) -/
def HBM_CTRL_SCRUB_EN : Fld := ⟨.HBM_CTRL, 31, 31⟩
def HBM_CTRL_SCRUB_HOURS : Fld := ⟨.HBM_CTRL, 30, 23⟩
def HBM_CTRL_UE_THR : Fld := ⟨.HBM_CTRL, 19, 16⟩
def HBM_CTRL_CMD_THR : Fld := ⟨.HBM_CTRL, 15, 12⟩
def HBM_CTRL_IDLE_US : Fld := ⟨.HBM_CTRL, 11, 0⟩

/-! HBM_STATUS (spec/10_hbm_controller.md) -/
def HBM_STATUS_READY : Fld := ⟨.HBM_STATUS, 31, 31⟩
def HBM_STATUS_INIT_DONE : Fld := ⟨.HBM_STATUS, 30, 30⟩
def HBM_STATUS_NO_SPARE : Fld := ⟨.HBM_STATUS, 7, 7⟩
def HBM_STATUS_MIGRATE_DONE : Fld := ⟨.HBM_STATUS, 6, 6⟩
def HBM_STATUS_RETIRED : Fld := ⟨.HBM_STATUS, 5, 5⟩
def HBM_STATUS_UE : Fld := ⟨.HBM_STATUS, 4, 4⟩
def HBM_STATUS_CMD_ERR : Fld := ⟨.HBM_STATUS, 3, 3⟩
def HBM_STATUS_TRAIN_FAIL : Fld := ⟨.HBM_STATUS, 2, 2⟩
def HBM_STATUS_CAPACITY_MISMATCH : Fld := ⟨.HBM_STATUS, 1, 1⟩
def HBM_STATUS_CFG_ERR : Fld := ⟨.HBM_STATUS, 0, 0⟩

/-! HBM_ARB_CFG (spec/10_hbm_controller.md) -/
def HBM_ARB_CFG_STACK_BUDGET : Fld := ⟨.HBM_ARB_CFG, 63, 55⟩
def HBM_ARB_CFG_SPILL_WR : Fld := ⟨.HBM_ARB_CFG, 54, 48⟩
def HBM_ARB_CFG_SPILL_RD : Fld := ⟨.HBM_ARB_CFG, 47, 41⟩
def HBM_ARB_CFG_FAR : Fld := ⟨.HBM_ARB_CFG, 40, 34⟩
def HBM_ARB_CFG_SA : Fld := ⟨.HBM_ARB_CFG, 33, 27⟩
def HBM_ARB_CFG_STAT : Fld := ⟨.HBM_ARB_CFG, 26, 20⟩
def HBM_ARB_CFG_MGMT : Fld := ⟨.HBM_ARB_CFG, 19, 13⟩
def HBM_ARB_CFG_MAINT : Fld := ⟨.HBM_ARB_CFG, 12, 6⟩

/-! HBM_RETIRE (spec/10_hbm_controller.md) -/
def HBM_RETIRE_GO : Fld := ⟨.HBM_RETIRE, 31, 31⟩
def HBM_RETIRE_STACK : Fld := ⟨.HBM_RETIRE, 6, 5⟩
def HBM_RETIRE_PCH : Fld := ⟨.HBM_RETIRE, 4, 0⟩

/-! HBM_ERR_LOG (spec/10_hbm_controller.md) -/
def HBM_ERR_LOG_LOCATION : Fld := ⟨.HBM_ERR_LOG, 63, 0⟩

/-! HBM_ERR_INFO (spec/10_hbm_controller.md) -/
def HBM_ERR_INFO_KIND : Fld := ⟨.HBM_ERR_INFO, 31, 30⟩
def HBM_ERR_INFO_CLASS : Fld := ⟨.HBM_ERR_INFO, 29, 27⟩

/-! HBM_READS (spec/10_hbm_controller.md) -/
def HBM_READS_PEAK : Fld := ⟨.HBM_READS, 29, 16⟩
def HBM_READS_IN_FLIGHT : Fld := ⟨.HBM_READS, 13, 0⟩

/-! HBM_STACK_CFG (spec/10_hbm_controller.md) -/
def HBM_STACK_CFG_ORDER : Fld := ⟨.HBM_STACK_CFG, 31, 31⟩
def HBM_STACK_CFG_UE_ACT : Fld := ⟨.HBM_STACK_CFG, 30, 30⟩
def HBM_STACK_CFG_SPARE : Fld := ⟨.HBM_STACK_CFG, 4, 0⟩

/-! HBM_STACK_STATUS (spec/10_hbm_controller.md) -/
def HBM_STACK_STATUS_TEMP : Fld := ⟨.HBM_STACK_STATUS, 31, 24⟩
def HBM_STACK_STATUS_SPARE_USED : Fld := ⟨.HBM_STACK_STATUS, 23, 23⟩
def HBM_STACK_STATUS_MIGRATING : Fld := ⟨.HBM_STACK_STATUS, 22, 22⟩
def HBM_STACK_STATUS_RETIRED_PCH : Fld := ⟨.HBM_STACK_STATUS, 21, 17⟩
def HBM_STACK_STATUS_REFRESH_2X : Fld := ⟨.HBM_STACK_STATUS, 16, 16⟩

/-! HBM_STACK_MIG (spec/10_hbm_controller.md) -/
def HBM_STACK_MIG_PTR : Fld := ⟨.HBM_STACK_MIG, 19, 0⟩

/-! HBM_STACK_CNT (spec/10_hbm_controller.md) -/
def HBM_STACK_CNT_CE : Fld := ⟨.HBM_STACK_CNT, 31, 16⟩
def HBM_STACK_CNT_UE : Fld := ⟨.HBM_STACK_CNT, 15, 8⟩
def HBM_STACK_CNT_CMD : Fld := ⟨.HBM_STACK_CNT, 7, 0⟩

/-! HBM_PCH_STATE (spec/10_hbm_controller.md) -/
def HBM_PCH_STATE_STATE : Fld := ⟨.HBM_PCH_STATE, 63, 0⟩

/-! QUE_CTRL (spec/11_queues_scheduling.md) -/
def QUE_CTRL_EGQ_BASE : Fld := ⟨.QUE_CTRL, 19, 16⟩

/-! QUE_STATUS (spec/11_queues_scheduling.md) -/
def QUE_STATUS_FLUSH_BUSY : Fld := ⟨.QUE_STATUS, 31, 31⟩
def QUE_STATUS_MC_FULL : Fld := ⟨.QUE_STATUS, 3, 3⟩
def QUE_STATUS_LIMIT : Fld := ⟨.QUE_STATUS, 2, 2⟩
def QUE_STATUS_BAD_QID : Fld := ⟨.QUE_STATUS, 1, 1⟩
def QUE_STATUS_CFG_ERR : Fld := ⟨.QUE_STATUS, 0, 0⟩

/-! QUE_DROPS (spec/11_queues_scheduling.md) -/
def QUE_DROPS_LIMIT : Fld := ⟨.QUE_DROPS, 31, 16⟩
def QUE_DROPS_BAD_QID : Fld := ⟨.QUE_DROPS, 15, 0⟩

/-! QUE_FLUSH (spec/11_queues_scheduling.md) -/
def QUE_FLUSH_GO : Fld := ⟨.QUE_FLUSH, 31, 31⟩
def QUE_FLUSH_QID : Fld := ⟨.QUE_FLUSH, 19, 0⟩

/-! QUE_MC_STATUS (spec/11_queues_scheduling.md) -/
def QUE_MC_STATUS_DROPS : Fld := ⟨.QUE_MC_STATUS, 31, 16⟩
def QUE_MC_STATUS_PEAK : Fld := ⟨.QUE_MC_STATUS, 12, 0⟩

/-! QUE_PUNT_QID (spec/11_queues_scheduling.md) -/
def QUE_PUNT_QID_EN : Fld := ⟨.QUE_PUNT_QID, 31, 31⟩
def QUE_PUNT_QID_QID : Fld := ⟨.QUE_PUNT_QID, 19, 0⟩

/-! QUE_CFG_LIMIT (spec/11_queues_scheduling.md) -/
def QUE_CFG_LIMIT_ONDIE_MAX : Fld := ⟨.QUE_CFG_LIMIT, 23, 0⟩

/-! QUE_CFG_SPILL (spec/11_queues_scheduling.md) -/
def QUE_CFG_SPILL_SPILL_AT : Fld := ⟨.QUE_CFG_SPILL, 31, 16⟩
def QUE_CFG_SPILL_RESTORE_AT : Fld := ⟨.QUE_CFG_SPILL, 15, 0⟩

/-! QUE_CFG_TOTAL (spec/11_queues_scheduling.md) -/
def QUE_CFG_TOTAL_TOTAL_MAX : Fld := ⟨.QUE_CFG_TOTAL, 23, 0⟩

/-! QUE_CFG_YELLOW (spec/11_queues_scheduling.md) -/
def QUE_CFG_YELLOW_YELLOW_MAX : Fld := ⟨.QUE_CFG_YELLOW, 23, 0⟩

/-! SHP_STATUS (spec/11_queues_scheduling.md) -/
def SHP_STATUS_POL_RED : Fld := ⟨.SHP_STATUS, 3, 3⟩
def SHP_STATUS_GATE_OVERSIZE : Fld := ⟨.SHP_STATUS, 2, 2⟩
def SHP_STATUS_SWITCHED : Fld := ⟨.SHP_STATUS, 1, 1⟩
def SHP_STATUS_CFG_ERR : Fld := ⟨.SHP_STATUS, 0, 0⟩

/-! SHP_POL_DROPS (spec/11_queues_scheduling.md) -/
def SHP_POL_DROPS_RED : Fld := ⟨.SHP_POL_DROPS, 31, 16⟩
def SHP_POL_DROPS_YELLOW : Fld := ⟨.SHP_POL_DROPS, 15, 0⟩

/-! SHP_L0_HELD (spec/11_queues_scheduling.md) -/
def SHP_L0_HELD_HELD : Fld := ⟨.SHP_L0_HELD, 31, 0⟩

/-! SHP_GALLEY_CTRL (spec/11_queues_scheduling.md) -/
def SHP_GALLEY_CTRL_EN : Fld := ⟨.SHP_GALLEY_CTRL, 31, 31⟩
def SHP_GALLEY_CTRL_ACTIVE : Fld := ⟨.SHP_GALLEY_CTRL, 30, 30⟩
def SHP_GALLEY_CTRL_SWITCH : Fld := ⟨.SHP_GALLEY_CTRL, 29, 29⟩
def SHP_GALLEY_CTRL_GAP_GATES : Fld := ⟨.SHP_GALLEY_CTRL, 15, 8⟩

/-! SHP_GALLEY_STATUS (spec/11_queues_scheduling.md) -/
def SHP_GALLEY_STATUS_UNALIGNED : Fld := ⟨.SHP_GALLEY_STATUS, 31, 31⟩
def SHP_GALLEY_STATUS_SWITCH_PENDING : Fld := ⟨.SHP_GALLEY_STATUS, 30, 30⟩
def SHP_GALLEY_STATUS_IN_GAP : Fld := ⟨.SHP_GALLEY_STATUS, 29, 29⟩
def SHP_GALLEY_STATUS_ENTRY : Fld := ⟨.SHP_GALLEY_STATUS, 25, 16⟩
def SHP_GALLEY_STATUS_OVERSIZE : Fld := ⟨.SHP_GALLEY_STATUS, 15, 8⟩
def SHP_GALLEY_STATUS_GATES : Fld := ⟨.SHP_GALLEY_STATUS, 7, 0⟩

/-! SHP_GALLEY_BASE_SEC (spec/11_queues_scheduling.md) -/
def SHP_GALLEY_BASE_SEC_SEC : Fld := ⟨.SHP_GALLEY_BASE_SEC, 47, 0⟩

/-! SHP_GALLEY_BASE_NS (spec/11_queues_scheduling.md) -/
def SHP_GALLEY_BASE_NS_NS : Fld := ⟨.SHP_GALLEY_BASE_NS, 31, 0⟩

/-! SHP_GALLEY_CYCLE (spec/11_queues_scheduling.md) -/
def SHP_GALLEY_CYCLE_CYCLE_NS : Fld := ⟨.SHP_GALLEY_CYCLE, 31, 0⟩

/-! SHP_GALLEY_LEN (spec/11_queues_scheduling.md) -/
def SHP_GALLEY_LEN_LENGTH : Fld := ⟨.SHP_GALLEY_LEN, 10, 0⟩

/-! FAB_CTRL (spec/12_fabric_interface.md) -/
def FAB_CTRL_N : Fld := ⟨.FAB_CTRL, 30, 28⟩
def FAB_CTRL_M : Fld := ⟨.FAB_CTRL, 27, 24⟩
def FAB_CTRL_RETIRE_THR : Fld := ⟨.FAB_CTRL, 23, 16⟩
def FAB_CTRL_MY_EP : Fld := ⟨.FAB_CTRL, 9, 0⟩

/-! FAB_STATUS (spec/12_fabric_interface.md) -/
def FAB_STATUS_ROGUE : Fld := ⟨.FAB_STATUS, 4, 4⟩
def FAB_STATUS_TIMEOUT : Fld := ⟨.FAB_STATUS, 3, 3⟩
def FAB_STATUS_STORE_FULL : Fld := ⟨.FAB_STATUS, 2, 2⟩
def FAB_STATUS_LANE_RETIRED : Fld := ⟨.FAB_STATUS, 1, 1⟩
def FAB_STATUS_CFG_ERR : Fld := ⟨.FAB_STATUS, 0, 0⟩

/-! FAB_CREDIT_CFG (spec/12_fabric_interface.md) -/
def FAB_CREDIT_CFG_CREDIT_SIZE : Fld := ⟨.FAB_CREDIT_CFG, 31, 30⟩
def FAB_CREDIT_CFG_GEN_PCT : Fld := ⟨.FAB_CREDIT_CFG, 29, 23⟩
def FAB_CREDIT_CFG_BAL_MAX : Fld := ⟨.FAB_CREDIT_CFG, 22, 20⟩
def FAB_CREDIT_CFG_REFRESH_US : Fld := ⟨.FAB_CREDIT_CFG, 19, 12⟩
def FAB_CREDIT_CFG_HOLD : Fld := ⟨.FAB_CREDIT_CFG, 11, 0⟩

/-! FAB_DISP_CFG (spec/12_fabric_interface.md) -/
def FAB_DISP_CFG_CTRL_MAX : Fld := ⟨.FAB_DISP_CFG, 7, 0⟩

/-! FAB_REASM_CFG (spec/12_fabric_interface.md) -/
def FAB_REASM_CFG_FE_US : Fld := ⟨.FAB_REASM_CFG, 31, 16⟩
def FAB_REASM_CFG_TIMEOUT_US : Fld := ⟨.FAB_REASM_CFG, 15, 0⟩

/-! FAB_ELIM_CFG (spec/12_fabric_interface.md) -/
def FAB_ELIM_CFG_ROGUE_THR : Fld := ⟨.FAB_ELIM_CFG, 23, 16⟩
def FAB_ELIM_CFG_IDLE_MS : Fld := ⟨.FAB_ELIM_CFG, 15, 0⟩

/-! FAB_RX_DROPS (spec/12_fabric_interface.md) -/
def FAB_RX_DROPS_HDR_ERR : Fld := ⟨.FAB_RX_DROPS, 31, 24⟩
def FAB_RX_DROPS_MISROUTE : Fld := ⟨.FAB_RX_DROPS, 23, 16⟩
def FAB_RX_DROPS_SEQ_LATE : Fld := ⟨.FAB_RX_DROPS, 15, 8⟩
def FAB_RX_DROPS_SEQ_WINDOW : Fld := ⟨.FAB_RX_DROPS, 7, 0⟩

/-! FAB_ELIM_STAT (spec/12_fabric_interface.md) -/
def FAB_ELIM_STAT_DUP : Fld := ⟨.FAB_ELIM_STAT, 31, 16⟩
def FAB_ELIM_STAT_ROGUE : Fld := ⟨.FAB_ELIM_STAT, 15, 8⟩
def FAB_ELIM_STAT_RESTARTS : Fld := ⟨.FAB_ELIM_STAT, 7, 0⟩

/-! FAB_LANE_LIVE (spec/12_fabric_interface.md) -/
def FAB_LANE_LIVE_LIVE : Fld := ⟨.FAB_LANE_LIVE, 31, 0⟩

/-! FAB_LANE_RETIRE (spec/12_fabric_interface.md) -/
def FAB_LANE_RETIRE_GO : Fld := ⟨.FAB_LANE_RETIRE, 31, 31⟩
def FAB_LANE_RETIRE_LANE : Fld := ⟨.FAB_LANE_RETIRE, 7, 0⟩

/-! FAB_ERR_LOG (spec/12_fabric_interface.md) -/
def FAB_ERR_LOG_LOCATION : Fld := ⟨.FAB_ERR_LOG, 63, 0⟩

/-! FAB_GROUP_STATUS (spec/12_fabric_interface.md) -/
def FAB_GROUP_STATUS_LIVE : Fld := ⟨.FAB_GROUP_STATUS, 31, 28⟩
def FAB_GROUP_STATUS_FAR_RETIRED : Fld := ⟨.FAB_GROUP_STATUS, 27, 24⟩
def FAB_GROUP_STATUS_SLOTS : Fld := ⟨.FAB_GROUP_STATUS, 19, 16⟩
def FAB_GROUP_STATUS_UNCORR : Fld := ⟨.FAB_GROUP_STATUS, 15, 0⟩

/-! RED_CTRL (spec/13_triplet_doublet.md) -/
def RED_CTRL_YIELD : Fld := ⟨.RED_CTRL, 31, 31⟩
def RED_CTRL_AUTO_RESTART : Fld := ⟨.RED_CTRL, 30, 30⟩
def RED_CTRL_SECOND_PUNT : Fld := ⟨.RED_CTRL, 29, 29⟩
def RED_CTRL_MEMBER : Fld := ⟨.RED_CTRL, 10, 10⟩
def RED_CTRL_PEER_EP : Fld := ⟨.RED_CTRL, 9, 0⟩

/-! RED_STATUS (spec/13_triplet_doublet.md) -/
def RED_STATUS_PRINCIPAL : Fld := ⟨.RED_STATUS, 31, 31⟩
def RED_STATUS_ARB_ROLE : Fld := ⟨.RED_STATUS, 30, 30⟩
def RED_STATUS_ARB_FAULT : Fld := ⟨.RED_STATUS, 29, 29⟩
def RED_STATUS_TWIN_UP : Fld := ⟨.RED_STATUS, 28, 28⟩
def RED_STATUS_SYNCED : Fld := ⟨.RED_STATUS, 27, 27⟩
def RED_STATUS_SYNCING : Fld := ⟨.RED_STATUS, 26, 26⟩
def RED_STATUS_PEER_VER : Fld := ⟨.RED_STATUS, 15, 8⟩
def RED_STATUS_NO_PRINCIPAL : Fld := ⟨.RED_STATUS, 3, 3⟩
def RED_STATUS_DUAL_PRINCIPAL : Fld := ⟨.RED_STATUS, 2, 2⟩
def RED_STATUS_ROLE_CHANGE : Fld := ⟨.RED_STATUS, 1, 1⟩
def RED_STATUS_CFG_ERR : Fld := ⟨.RED_STATUS, 0, 0⟩

/-! RED_FAULT (spec/13_triplet_doublet.md) -/
def RED_FAULT_COND : Fld := ⟨.RED_FAULT, 22, 16⟩
def RED_FAULT_MASK : Fld := ⟨.RED_FAULT, 6, 0⟩

/-! RED_FATAL (spec/13_triplet_doublet.md) -/
def RED_FATAL_COUNT : Fld := ⟨.RED_FATAL, 31, 24⟩
def RED_FATAL_CODE : Fld := ⟨.RED_FATAL, 23, 20⟩
def RED_FATAL_HELD : Fld := ⟨.RED_FATAL, 0, 0⟩

/-! RED_TWIN_CFG (spec/13_triplet_doublet.md) -/
def RED_TWIN_CFG_RETIRE_THR : Fld := ⟨.RED_TWIN_CFG, 31, 24⟩
def RED_TWIN_CFG_N : Fld := ⟨.RED_TWIN_CFG, 22, 20⟩
def RED_TWIN_CFG_M : Fld := ⟨.RED_TWIN_CFG, 19, 16⟩

/-! RED_TWIN_STATUS (spec/13_triplet_doublet.md) -/
def RED_TWIN_STATUS_LIVE : Fld := ⟨.RED_TWIN_STATUS, 31, 30⟩
def RED_TWIN_STATUS_FAR_RETIRED : Fld := ⟨.RED_TWIN_STATUS, 29, 28⟩
def RED_TWIN_STATUS_UNCORR : Fld := ⟨.RED_TWIN_STATUS, 15, 0⟩

/-! RED_TWIN_RETIRE (spec/13_triplet_doublet.md) -/
def RED_TWIN_RETIRE_GO : Fld := ⟨.RED_TWIN_RETIRE, 31, 31⟩
def RED_TWIN_RETIRE_LANE : Fld := ⟨.RED_TWIN_RETIRE, 0, 0⟩

/-! RED_CB_CFG (spec/13_triplet_doublet.md) -/
def RED_CB_CFG_RECOV_MS : Fld := ⟨.RED_CB_CFG, 15, 0⟩

/-! RED_CB_DROPS (spec/13_triplet_doublet.md) -/
def RED_CB_DROPS_DUPLICATE : Fld := ⟨.RED_CB_DROPS, 31, 24⟩
def RED_CB_DROPS_ROGUE : Fld := ⟨.RED_CB_DROPS, 23, 16⟩
def RED_CB_DROPS_NO_RTAG : Fld := ⟨.RED_CB_DROPS, 15, 8⟩
def RED_CB_DROPS_UNSYNCED : Fld := ⟨.RED_CB_DROPS, 7, 0⟩

/-! RED_SYNC (spec/13_triplet_doublet.md) -/
def RED_SYNC_SNAPSHOTS : Fld := ⟨.RED_SYNC, 31, 24⟩
def RED_SYNC_APPLY_FAIL : Fld := ⟨.RED_SYNC, 23, 16⟩
def RED_SYNC_OVF : Fld := ⟨.RED_SYNC, 15, 8⟩
def RED_SYNC_PROGRESS : Fld := ⟨.RED_SYNC, 6, 0⟩

/-! RED_ROLE_PICA (spec/13_triplet_doublet.md) -/
def RED_ROLE_PICA_PICA : Fld := ⟨.RED_ROLE_PICA, 63, 0⟩

/-! MGT_CTRL (spec/14_boot_and_update.md) -/
def MGT_CTRL_CFG_LOCK : Fld := ⟨.MGT_CTRL, 31, 31⟩
def MGT_CTRL_CONFIRM : Fld := ⟨.MGT_CTRL, 30, 30⟩
def MGT_CTRL_REJECT : Fld := ⟨.MGT_CTRL, 29, 29⟩
def MGT_CTRL_MGMT_RESET : Fld := ⟨.MGT_CTRL, 28, 28⟩
def MGT_CTRL_CORE_RESET : Fld := ⟨.MGT_CTRL, 27, 27⟩

/-! MGT_STATUS (spec/14_boot_and_update.md) -/
def MGT_STATUS_STAGE : Fld := ⟨.MGT_STATUS, 31, 28⟩
def MGT_STATUS_PROOF : Fld := ⟨.MGT_STATUS, 27, 27⟩
def MGT_STATUS_SLOT : Fld := ⟨.MGT_STATUS, 26, 26⟩
def MGT_STATUS_STORE_COPY : Fld := ⟨.MGT_STATUS, 25, 25⟩
def MGT_STATUS_NO_STORE : Fld := ⟨.MGT_STATUS, 24, 24⟩
def MGT_STATUS_FALLBACK : Fld := ⟨.MGT_STATUS, 23, 23⟩
def MGT_STATUS_CONFIRM_REQ : Fld := ⟨.MGT_STATUS, 22, 22⟩
def MGT_STATUS_HEALTHY : Fld := ⟨.MGT_STATUS, 21, 21⟩
def MGT_STATUS_CFG_ERR : Fld := ⟨.MGT_STATUS, 20, 20⟩
def MGT_STATUS_BOOT_ERR : Fld := ⟨.MGT_STATUS, 15, 8⟩

/-! MGT_IMAGE (spec/14_boot_and_update.md) -/
def MGT_IMAGE_VERSION : Fld := ⟨.MGT_IMAGE, 31, 0⟩

/-! MGT_SECURITY (spec/14_boot_and_update.md) -/
def MGT_SECURITY_FUSED_SVN : Fld := ⟨.MGT_SECURITY, 30, 24⟩
def MGT_SECURITY_IMAGE_SVN : Fld := ⟨.MGT_SECURITY, 22, 16⟩
def MGT_SECURITY_KEYS_PROG : Fld := ⟨.MGT_SECURITY, 15, 12⟩
def MGT_SECURITY_KEYS_REVOKED : Fld := ⟨.MGT_SECURITY, 11, 8⟩
def MGT_SECURITY_KEY_SLOT : Fld := ⟨.MGT_SECURITY, 7, 6⟩

/-! MGT_PROOF (spec/14_boot_and_update.md) -/
def MGT_PROOF_WINDOW_S : Fld := ⟨.MGT_PROOF, 31, 20⟩
def MGT_PROOF_REMAIN_S : Fld := ⟨.MGT_PROOF, 19, 8⟩
def MGT_PROOF_CONFIRM_S : Fld := ⟨.MGT_PROOF, 7, 0⟩

/-! MGT_UPDATE (spec/14_boot_and_update.md) -/
def MGT_UPDATE_STATE : Fld := ⟨.MGT_UPDATE, 31, 29⟩
def MGT_UPDATE_ERR : Fld := ⟨.MGT_UPDATE, 28, 21⟩
def MGT_UPDATE_BLOCKS : Fld := ⟨.MGT_UPDATE, 13, 0⟩

/-! MGT_UPDATE_MISS (spec/14_boot_and_update.md) -/
def MGT_UPDATE_MISS_ALL : Fld := ⟨.MGT_UPDATE_MISS, 31, 31⟩
def MGT_UPDATE_MISS_MISSING : Fld := ⟨.MGT_UPDATE_MISS, 13, 0⟩

/-! HST_ID (spec/15_host_interface.md) -/
def HST_ID_PART : Fld := ⟨.HST_ID, 31, 16⟩
def HST_ID_ORDER : Fld := ⟨.HST_ID, 15, 8⟩
def HST_ID_REV : Fld := ⟨.HST_ID, 7, 0⟩

/-! HST_SERIAL (spec/15_host_interface.md) -/
def HST_SERIAL_SERIAL : Fld := ⟨.HST_SERIAL, 63, 0⟩

/-! HST_SESS_CMD (spec/15_host_interface.md) -/
def HST_SESS_CMD_OP : Fld := ⟨.HST_SESS_CMD, 31, 28⟩
def HST_SESS_CMD_LEVEL : Fld := ⟨.HST_SESS_CMD, 27, 27⟩

/-! HST_SESS_STATUS (spec/15_host_interface.md) -/
def HST_SESS_STATUS_STATE : Fld := ⟨.HST_SESS_STATUS, 31, 29⟩
def HST_SESS_STATUS_FAILS : Fld := ⟨.HST_SESS_STATUS, 23, 16⟩
def HST_SESS_STATUS_LOCK_S : Fld := ⟨.HST_SESS_STATUS, 15, 0⟩

/-! HST_SESS_DATA (spec/15_host_interface.md) -/
def HST_SESS_DATA_DATA : Fld := ⟨.HST_SESS_DATA, 31, 0⟩

/-! HST_CTRL (spec/15_host_interface.md) -/
def HST_CTRL_NOTICE_EN : Fld := ⟨.HST_CTRL, 31, 31⟩
def HST_CTRL_NOTICE_CQ : Fld := ⟨.HST_CTRL, 29, 24⟩
def HST_CTRL_APERTURE : Fld := ⟨.HST_CTRL, 5, 0⟩

/-! HST_STATUS (spec/15_host_interface.md) -/
def HST_STATUS_HALTED : Fld := ⟨.HST_STATUS, 31, 31⟩
def HST_STATUS_NOTICE_LOST : Fld := ⟨.HST_STATUS, 3, 3⟩
def HST_STATUS_ACCESS_ERR : Fld := ⟨.HST_STATUS, 2, 2⟩
def HST_STATUS_DENIED : Fld := ⟨.HST_STATUS, 1, 1⟩
def HST_STATUS_CFG_ERR : Fld := ⟨.HST_STATUS, 0, 0⟩

/-! HST_HALT (spec/15_host_interface.md) -/
def HST_HALT_CAUSE : Fld := ⟨.HST_HALT, 63, 60⟩
def HST_HALT_QUEUE : Fld := ⟨.HST_HALT, 53, 48⟩
def HST_HALT_OPCODE : Fld := ⟨.HST_HALT, 47, 40⟩
def HST_HALT_INDEX : Fld := ⟨.HST_HALT, 31, 0⟩

/-! HST_SMB_CFG (spec/15_host_interface.md) -/
def HST_SMB_CFG_ADDR : Fld := ⟨.HST_SMB_CFG, 6, 0⟩

/-! HST_WQ_CFG (spec/15_host_interface.md) -/
def HST_WQ_CFG_EN : Fld := ⟨.HST_WQ_CFG, 31, 31⟩
def HST_WQ_CFG_CAP : Fld := ⟨.HST_WQ_CFG, 30, 30⟩
def HST_WQ_CFG_SIZE : Fld := ⟨.HST_WQ_CFG, 20, 16⟩
def HST_WQ_CFG_CQ : Fld := ⟨.HST_WQ_CFG, 5, 0⟩

/-! HST_CQ_CFG (spec/15_host_interface.md) -/
def HST_CQ_CFG_EN : Fld := ⟨.HST_CQ_CFG, 31, 31⟩
def HST_CQ_CFG_ALL : Fld := ⟨.HST_CQ_CFG, 30, 30⟩
def HST_CQ_CFG_SIZE : Fld := ⟨.HST_CQ_CFG, 20, 16⟩
def HST_CQ_CFG_VECTOR : Fld := ⟨.HST_CQ_CFG, 5, 0⟩

/-! HST_WQ_STATUS (spec/15_host_interface.md) -/
def HST_WQ_STATUS_ENABLED : Fld := ⟨.HST_WQ_STATUS, 31, 31⟩
def HST_WQ_STATUS_WAIT_CQ : Fld := ⟨.HST_WQ_STATUS, 30, 30⟩
def HST_WQ_STATUS_INVAL_LATE : Fld := ⟨.HST_WQ_STATUS, 1, 1⟩
def HST_WQ_STATUS_FETCH_ERR : Fld := ⟨.HST_WQ_STATUS, 0, 0⟩

/-! HST_PUNT_DROPS (spec/15_host_interface.md) -/
def HST_PUNT_DROPS_FULL : Fld := ⟨.HST_PUNT_DROPS, 31, 16⟩
def HST_PUNT_DROPS_OFF : Fld := ⟨.HST_PUNT_DROPS, 15, 0⟩

/-! DMA_CH_CFG (spec/15_host_interface.md) -/
def DMA_CH_CFG_EN : Fld := ⟨.DMA_CH_CFG, 31, 31⟩
def DMA_CH_CFG_ADMIN : Fld := ⟨.DMA_CH_CFG, 30, 30⟩
def DMA_CH_CFG_SIZE : Fld := ⟨.DMA_CH_CFG, 19, 16⟩

/-! DMA_CH_STATUS (spec/15_host_interface.md) -/
def DMA_CH_STATUS_BUSY : Fld := ⟨.DMA_CH_STATUS, 31, 31⟩
def DMA_CH_STATUS_LATE : Fld := ⟨.DMA_CH_STATUS, 30, 30⟩
def DMA_CH_STATUS_BAD : Fld := ⟨.DMA_CH_STATUS, 15, 0⟩

/-! EVT_CTRL (spec/16_events_counters_power.md) -/
def EVT_CTRL_LOG_EN : Fld := ⟨.EVT_CTRL, 31, 31⟩

/-! EVT_STATUS (spec/16_events_counters_power.md) -/
def EVT_STATUS_LOG_COUNT : Fld := ⟨.EVT_STATUS, 20, 10⟩
def EVT_STATUS_LOG_OVF : Fld := ⟨.EVT_STATUS, 1, 1⟩
def EVT_STATUS_CFG_ERR : Fld := ⟨.EVT_STATUS, 0, 0⟩

/-! EVT_SUMMARY (spec/16_events_counters_power.md) -/
def EVT_SUMMARY_GROUPS : Fld := ⟨.EVT_SUMMARY, 35, 0⟩

/-! EVT_LOG_REC (spec/16_events_counters_power.md) -/
def EVT_LOG_REC_VALID : Fld := ⟨.EVT_LOG_REC, 31, 31⟩
def EVT_LOG_REC_SOURCE : Fld := ⟨.EVT_LOG_REC, 10, 0⟩

/-! EVT_SW_SET (spec/16_events_counters_power.md) -/
def EVT_SW_SET_GO : Fld := ⟨.EVT_SW_SET, 31, 31⟩
def EVT_SW_SET_SOURCE : Fld := ⟨.EVT_SW_SET, 10, 0⟩

/-! EVT_GRP_PEND (spec/16_events_counters_power.md) -/
def EVT_GRP_PEND_PEND : Fld := ⟨.EVT_GRP_PEND, 31, 0⟩

/-! EVT_VEC_CFG (spec/16_events_counters_power.md) -/
def EVT_VEC_CFG_HOLDOFF_US : Fld := ⟨.EVT_VEC_CFG, 15, 0⟩

/-! EVT_SRC_CFG (spec/16_events_counters_power.md) -/
def EVT_SRC_CFG_EN : Fld := ⟨.EVT_SRC_CFG, 31, 31⟩
def EVT_SRC_CFG_LOG : Fld := ⟨.EVT_SRC_CFG, 30, 30⟩
def EVT_SRC_CFG_VECTOR : Fld := ⟨.EVT_SRC_CFG, 5, 0⟩

/-! CNT_CTRL (spec/16_events_counters_power.md) -/
def CNT_CTRL_SNAPSHOT : Fld := ⟨.CNT_CTRL, 31, 31⟩
def CNT_CTRL_RELEASE : Fld := ⟨.CNT_CTRL, 30, 30⟩
def CNT_CTRL_FREEZE_MS : Fld := ⟨.CNT_CTRL, 29, 23⟩
def CNT_CTRL_FLUSH_MS : Fld := ⟨.CNT_CTRL, 22, 13⟩

/-! CNT_STATUS (spec/16_events_counters_power.md) -/
def CNT_STATUS_SNAP_DONE : Fld := ⟨.CNT_STATUS, 31, 31⟩
def CNT_STATUS_FROZEN : Fld := ⟨.CNT_STATUS, 30, 30⟩
def CNT_STATUS_FREEZE_EXPIRED : Fld := ⟨.CNT_STATUS, 3, 3⟩
def CNT_STATUS_POISON : Fld := ⟨.CNT_STATUS, 2, 2⟩
def CNT_STATUS_EXP_LATE : Fld := ⟨.CNT_STATUS, 1, 1⟩
def CNT_STATUS_CFG_ERR : Fld := ⟨.CNT_STATUS, 0, 0⟩

/-! CNT_SNAP_PICA (spec/16_events_counters_power.md) -/
def CNT_SNAP_PICA_PICA : Fld := ⟨.CNT_SNAP_PICA, 63, 0⟩

/-! CNT_DROP_TOTAL (spec/16_events_counters_power.md) -/
def CNT_DROP_TOTAL_FRAMES : Fld := ⟨.CNT_DROP_TOTAL, 63, 0⟩

/-! CNT_CACHE (spec/16_events_counters_power.md) -/
def CNT_CACHE_URGENT : Fld := ⟨.CNT_CACHE, 31, 18⟩
def CNT_CACHE_USED : Fld := ⟨.CNT_CACHE, 17, 0⟩

/-! CNT_ERR_LOG (spec/16_events_counters_power.md) -/
def CNT_ERR_LOG_SPACE : Fld := ⟨.CNT_ERR_LOG, 62, 60⟩
def CNT_ERR_LOG_INDEX : Fld := ⟨.CNT_ERR_LOG, 23, 0⟩

/-! CNT_EXP_CFG (spec/16_events_counters_power.md) -/
def CNT_EXP_CFG_EN : Fld := ⟨.CNT_EXP_CFG, 31, 31⟩
def CNT_EXP_CFG_CHANNEL : Fld := ⟨.CNT_EXP_CFG, 19, 16⟩
def CNT_EXP_CFG_PERIOD_MS : Fld := ⟨.CNT_EXP_CFG, 15, 0⟩

/-! CNT_EXP_RANGE (spec/16_events_counters_power.md) -/
def CNT_EXP_RANGE_LENGTH : Fld := ⟨.CNT_EXP_RANGE, 57, 32⟩
def CNT_EXP_RANGE_OFFSET : Fld := ⟨.CNT_EXP_RANGE, 24, 0⟩

/-! CNT_EXP_ADDR (spec/16_events_counters_power.md) -/
def CNT_EXP_ADDR_ADDR : Fld := ⟨.CNT_EXP_ADDR, 63, 12⟩

/-! CNT_EXP_STATUS (spec/16_events_counters_power.md) -/
def CNT_EXP_STATUS_SEQ : Fld := ⟨.CNT_EXP_STATUS, 31, 16⟩
def CNT_EXP_STATUS_BUSY : Fld := ⟨.CNT_EXP_STATUS, 15, 15⟩

/-! PWR_CTRL (spec/16_events_counters_power.md) -/
def PWR_CTRL_P4_REQ : Fld := ⟨.PWR_CTRL, 31, 31⟩
def PWR_CTRL_P3_EN : Fld := ⟨.PWR_CTRL, 30, 30⟩
def PWR_CTRL_HOLD_US : Fld := ⟨.PWR_CTRL, 15, 0⟩

/-! PWR_STATUS (spec/16_events_counters_power.md) -/
def PWR_STATUS_DEVICE : Fld := ⟨.PWR_STATUS, 31, 29⟩
def PWR_STATUS_CFG_ERR : Fld := ⟨.PWR_STATUS, 0, 0⟩

/-! PWR_THERM_CFG (spec/16_events_counters_power.md) -/
def PWR_THERM_CFG_CRIT : Fld := ⟨.PWR_THERM_CFG, 15, 8⟩
def PWR_THERM_CFG_WARN : Fld := ⟨.PWR_THERM_CFG, 7, 0⟩

/-! PWR_THERM_STATUS (spec/16_events_counters_power.md) -/
def PWR_THERM_STATUS_MAX_C : Fld := ⟨.PWR_THERM_STATUS, 31, 24⟩
def PWR_THERM_STATUS_MAX_SENSOR : Fld := ⟨.PWR_THERM_STATUS, 20, 16⟩
def PWR_THERM_STATUS_TRIP : Fld := ⟨.PWR_THERM_STATUS, 2, 2⟩
def PWR_THERM_STATUS_CRIT : Fld := ⟨.PWR_THERM_STATUS, 1, 1⟩
def PWR_THERM_STATUS_WARN : Fld := ⟨.PWR_THERM_STATUS, 0, 0⟩

/-! PWR_GRP_CFG (spec/16_events_counters_power.md) -/
def PWR_GRP_CFG_LTR_US : Fld := ⟨.PWR_GRP_CFG, 19, 0⟩

/-! PWR_GRP_STATUS (spec/16_events_counters_power.md) -/
def PWR_GRP_STATUS_STATE : Fld := ⟨.PWR_GRP_STATUS, 31, 29⟩
def PWR_GRP_STATUS_ENTRIES : Fld := ⟨.PWR_GRP_STATUS, 15, 0⟩

/-! PWR_THERM_SENSOR (spec/16_events_counters_power.md) -/
def PWR_THERM_SENSOR_TEMP : Fld := ⟨.PWR_THERM_SENSOR, 15, 0⟩

/-! HST_WQ_ADDR (spec/15_host_interface.md) -/
def HST_WQ_ADDR_ADDR : Fld := ⟨.HST_WQ_ADDR, 63, 12⟩

/-! HST_CQ_ADDR (spec/15_host_interface.md) -/
def HST_CQ_ADDR_ADDR : Fld := ⟨.HST_CQ_ADDR, 63, 12⟩

/-! HST_PUNT_ADDR (spec/15_host_interface.md) -/
def HST_PUNT_ADDR_ADDR : Fld := ⟨.HST_PUNT_ADDR, 63, 12⟩

/-! HST_INJ_ADDR (spec/15_host_interface.md) -/
def HST_INJ_ADDR_ADDR : Fld := ⟨.HST_INJ_ADDR, 63, 12⟩

/-! DMA_CH_RING (spec/15_host_interface.md) -/
def DMA_CH_RING_ADDR : Fld := ⟨.DMA_CH_RING, 63, 12⟩

/-! HST_PUNT_CFG (spec/15_host_interface.md) -/
def HST_PUNT_CFG_EN : Fld := ⟨.HST_PUNT_CFG, 31, 31⟩
def HST_PUNT_CFG_OWNER : Fld := ⟨.HST_PUNT_CFG, 30, 30⟩
def HST_PUNT_CFG_VECTOR_EN : Fld := ⟨.HST_PUNT_CFG, 29, 29⟩
def HST_PUNT_CFG_SLOT : Fld := ⟨.HST_PUNT_CFG, 25, 24⟩
def HST_PUNT_CFG_SIZE : Fld := ⟨.HST_PUNT_CFG, 20, 16⟩
def HST_PUNT_CFG_VECTOR : Fld := ⟨.HST_PUNT_CFG, 5, 0⟩

/-! HST_INJ_CFG (spec/15_host_interface.md) -/
def HST_INJ_CFG_EN : Fld := ⟨.HST_INJ_CFG, 31, 31⟩
def HST_INJ_CFG_OWNER : Fld := ⟨.HST_INJ_CFG, 30, 30⟩
def HST_INJ_CFG_VECTOR_EN : Fld := ⟨.HST_INJ_CFG, 29, 29⟩
def HST_INJ_CFG_SLOT : Fld := ⟨.HST_INJ_CFG, 25, 24⟩
def HST_INJ_CFG_SIZE : Fld := ⟨.HST_INJ_CFG, 20, 16⟩
def HST_INJ_CFG_VECTOR : Fld := ⟨.HST_INJ_CFG, 5, 0⟩

/-! HST_WQ_PI (spec/15_host_interface.md) -/
def HST_WQ_PI_INDEX : Fld := ⟨.HST_WQ_PI, 31, 0⟩

/-! HST_WQ_CI (spec/15_host_interface.md) -/
def HST_WQ_CI_INDEX : Fld := ⟨.HST_WQ_CI, 31, 0⟩

/-! HST_WQ_INVAL (spec/15_host_interface.md) -/
def HST_WQ_INVAL_INDEX : Fld := ⟨.HST_WQ_INVAL, 31, 0⟩

/-! HST_CQ_PI (spec/15_host_interface.md) -/
def HST_CQ_PI_INDEX : Fld := ⟨.HST_CQ_PI, 31, 0⟩

/-! HST_CQ_CI (spec/15_host_interface.md) -/
def HST_CQ_CI_INDEX : Fld := ⟨.HST_CQ_CI, 31, 0⟩

/-! HST_PUNT_PI (spec/15_host_interface.md) -/
def HST_PUNT_PI_INDEX : Fld := ⟨.HST_PUNT_PI, 31, 0⟩

/-! HST_PUNT_CI (spec/15_host_interface.md) -/
def HST_PUNT_CI_INDEX : Fld := ⟨.HST_PUNT_CI, 31, 0⟩

/-! HST_INJ_CI (spec/15_host_interface.md) -/
def HST_INJ_CI_INDEX : Fld := ⟨.HST_INJ_CI, 31, 0⟩

/-! HST_INJ_PI (spec/15_host_interface.md) -/
def HST_INJ_PI_INDEX : Fld := ⟨.HST_INJ_PI, 31, 0⟩

/-! DMA_CH_PI (spec/15_host_interface.md) -/
def DMA_CH_PI_INDEX : Fld := ⟨.DMA_CH_PI, 31, 0⟩

/-! DMA_CH_CI (spec/15_host_interface.md) -/
def DMA_CH_CI_INDEX : Fld := ⟨.DMA_CH_CI, 31, 0⟩

/-! LNE_TTI_TX_SM (spec/03_line_ports.md) -/
def LNE_TTI_TX_SM_WORD : Fld := ⟨.LNE_TTI_TX_SM, 31, 0⟩

/-! LNE_TTI_TX_PM (spec/03_line_ports.md) -/
def LNE_TTI_TX_PM_WORD : Fld := ⟨.LNE_TTI_TX_PM, 31, 0⟩

/-! LNE_TTI_EXP_SM (spec/03_line_ports.md) -/
def LNE_TTI_EXP_SM_WORD : Fld := ⟨.LNE_TTI_EXP_SM, 31, 0⟩

/-! LNE_TTI_EXP_PM (spec/03_line_ports.md) -/
def LNE_TTI_EXP_PM_WORD : Fld := ⟨.LNE_TTI_EXP_PM, 31, 0⟩

/-! LNE_TTI_RX_SM (spec/03_line_ports.md) -/
def LNE_TTI_RX_SM_WORD : Fld := ⟨.LNE_TTI_RX_SM, 31, 0⟩

/-! LNE_TTI_RX_PM (spec/03_line_ports.md) -/
def LNE_TTI_RX_PM_WORD : Fld := ⟨.LNE_TTI_RX_PM, 31, 0⟩

/-! LNE_CNT (spec/03_line_ports.md) -/
def LNE_CNT_COUNT : Fld := ⟨.LNE_CNT, 31, 0⟩

/-! PPE_USER (spec/08_packet_engines.md) -/
def PPE_USER_OVF : Fld := ⟨.PPE_USER, 63, 63⟩
def PPE_USER_VALUE : Fld := ⟨.PPE_USER, 47, 0⟩

end Sys2Proof.Machine.F
end

