-- ==== Sys2Proof/Machine/Maps.lean ====
section
/-! DEFINITION. Sparse maps as plain data: a list of (key, value) pairs with strictly rising keys, so that equal maps
are equal lists. A map with a default drops every entry equal to the default. -/
namespace Sys2Proof.Machine

/-- A sparse map from natural numbers. -/
abbrev SMap (α : Type) := List (Nat × α)

/-- The value at a key, if the map lists one. -/
def mget {α : Type} (m : SMap α) (k : Nat) : Option α :=
  match m with
  | [] => none
  | (k', v) :: t => if k' = k then some v else mget t k

/-- The value at a key, or the default where the map lists none. -/
def mgetD {α : Type} (m : SMap α) (k : Nat) (d : α) : α :=
  match mget m k with
  | some v => v
  | none => d

/-- The map with one value put at a key, in key order. -/
def mset {α : Type} (m : SMap α) (k : Nat) (v : α) : SMap α :=
  match m with
  | [] => [(k, v)]
  | (k', v') :: t =>
    if k < k' then (k, v) :: (k', v') :: t
    else if k = k' then (k, v) :: t
    else (k', v') :: mset t k v

/-- The map without a key. -/
def merase {α : Type} (m : SMap α) (k : Nat) : SMap α :=
  match m with
  | [] => []
  | (k', v') :: t => if k' = k then merase t k else (k', v') :: merase t k

/-- The map with a value put at a key, where the value equal to the default removes the entry. -/
def msetD {α : Type} [DecidableEq α] (m : SMap α) (k : Nat) (d v : α) : SMap α :=
  if v = d then merase m k else mset m k v

/-- Every key of the map is above a bound and the keys rise. -/
def maboveB {α : Type} (b : Nat) (m : SMap α) : Bool :=
  match m with
  | [] => true
  | (k, _) :: t => decide (b < k) && maboveB k t

/-- The keys of the map rise strictly. -/
def mwf {α : Type} (m : SMap α) : Bool :=
  match m with
  | [] => true
  | (k, _) :: t => maboveB k t

/-- The map restricted to the keys that pass a test. -/
def mfilter {α : Type} (p : Nat → α → Bool) (m : SMap α) : SMap α :=
  m.filter fun kv => p kv.1 kv.2

/-- The map with every value changed by a function of key and value. -/
def mmap {α β : Type} (f : Nat → α → β) (m : SMap α) : SMap β :=
  m.map fun kv => (kv.1, f kv.1 kv.2)

end Sys2Proof.Machine
end

