-- ==== Sys2Proof/Machine/TypesA.lean ====
section
/-! DEFINITION. The parts of the state that the management die and the clocks hold: resets and time (chapter 2),
Triplet and Doublet control (chapter 13), start-up (chapter 14), host interface (chapter 15), events, statistics and
power (chapter 16). Registers live in the register file; these parts hold what the spec gives the machine beside them.
Each field's default is its value after the reset that clears it. -/
namespace Sys2Proof.Machine

/-- A register access waiting in a die's register queue (R38). -/
structure HeldAccess where
  path : Path
  write : Bool
  addr : Nat
  data : W32
  deriving DecidableEq, Repr

/-- High-word latches and held low words of 64-bit accesses, per path and register word (R9, R352), and the three
register queues of 16 accesses (R38). -/
structure Bus where
  latch : SMap W32 := []
  hold : SMap W32 := []
  fdQ : List HeldAccess := []
  qdQ : List HeldAccess := []
  tdQ : List HeldAccess := []
  smbAddr : W32 := 0
  smbWait : Bool := false
  smbTimedOut : Bool := false
  deriving DecidableEq, Repr

/-- Reset balls, reset groups and the CORE group's holds (R40, R302, R392), and the test access port: the instruction loaded,
which is IDCODE after the port's reset, and whether TRST_N holds it in reset, as it does while the ball is low or open (Table
17-4, R419). -/
structure Groups where
  porstLow : Bool := true
  sysRstLow : Bool := false
  perstLow : Bool := false
  coreUp : Bool := false
  holds : List Hold := [.pkg]
  flush : Bool := false
  flushMgmt : Bool := false
  mgmtUp : Bool := false
  hostUp : Bool := false
  linkUp : Bool := false
  training : Bool := false
  refLost : List Ref := []
  jtag : Jtag := .idcode
  trst : Bool := true
  testMode : Bool := false
  deriving DecidableEq, Repr

/-- The pica number of FD, the copies of QD and TD, and the recent slips of each (R29 to R31). -/
structure Picas where
  num : Nat := 0
  qd : Nat := 0
  td : Nat := 0
  slipsQd : List Nat := []
  slipsTd : List Nat := []
  deriving DecidableEq, Repr

/-- The network time base (R43 to R47): seconds, nanoseconds and 2^-32 ns fractions, the increment in force, pending writes,
the seconds of the last valid ToD message and whether the next edge still loads them, the PPS lock counters, PPS_OUT with its
high time in units of 0.5 ms, a due TOD_TX message, and the whole seconds since reset. -/
structure TimeBase where
  sec : Nat := 0
  ns : Nat := 0
  frac : Nat := 0
  incr : Nat := 0x200000000
  pendIncr : Option Nat := none
  pendSec : Option Nat := none
  tod : Option Nat := none
  todFresh : Bool := false
  good : Nat := 0
  bad : Nat := 0
  ppsOut : Bool := false
  ppsHigh : Nat := 0
  todDue : Bool := false
  up : Nat := 0
  deriving DecidableEq, Repr

/-- One event of a source crossing to the event controller (R35): epoch, pica number and DATA of the raise, and the
pending bit, which keeps those values of the latest raise it collapsed. -/
structure Xing where
  epoch : Nat
  pica : Nat
  data : W64
  again : Option (Nat × Nat × W64) := none
  deriving DecidableEq, Repr

/-- A record of the event log (R383). -/
structure LogRec where
  source : Nat
  epoch : Nat
  pica : Nat
  data : W64
  deriving DecidableEq, Repr

/-- An entry of the MSI-X table in BAR4. -/
structure MsixEntry where
  addr : Nat := 0
  data : Nat := 0
  masked : Bool := true
  pend : Bool := false
  deriving DecidableEq, Repr

/-- The event controller: crossings in flight, the 1,024-record log, vectors in holdoff with their collapsed trigger,
and the MSI-X state of the endpoint (R380 to R383). -/
structure Events where
  xing : SMap Xing := []
  log : List LogRec := []
  holdoff : SMap Bool := []
  msix : SMap MsixEntry := []
  msixEn : Bool := false
  msixMask : Bool := false
  deriving DecidableEq, Repr

/-- The fuses (R332, R333, R354): ordering code, serial number, device wrap key, four key slots (none when
unprogrammed), revoke fuses and security version. -/
structure Fuses where
  order : Nat := 0
  serial : W64 := 0
  wrapKey : List Byte := []
  slots : SMap (List Byte) := []
  revoked : List Nat := []
  svn : Nat := 0
  deriving DecidableEq, Repr

/-- A boot record (Table 14-5). -/
structure BootRec where
  seq : Nat := 0
  active : Nat := 0
  proof : Bool := false
  prev : Option Nat := none
  attempt : Nat := 0
  storeActive : Nat := 0
  storePrev : Nat := 1
  spares : List Nat := [0, 0, 0, 0]
  deriving DecidableEq, Repr

/-- An update in progress (R340): kind, length, target offset, blocks received, the held last block of a store, and
what END found good. -/
structure Update where
  kind : Nat := 0
  length : Nat := 0
  target : Nat := 0
  blocks : List Nat := []
  lastBlock : List Byte := []
  imageOk : Bool := false
  storeOk : Bool := false
  deriving DecidableEq, Repr

/-- A flash operation that a command of a work queue waits for (R340): the erase of BEGIN, the program of a block, or the
Colophon of a store that passed END. -/
inductive FlashOp where
  | erase | block (off : Nat) (data : List Byte) | seal (colophon : List Byte)
  deriving DecidableEq, Repr

/-- A CAK of the keyring (R99): its port, its name, and the key wrapped under the device wrap key. -/
structure Cak where
  port : Nat
  ckn : List Byte
  wrapped : List Byte
  deriving DecidableEq, Repr

/-- The keyring in flash (R99, R354): the level keys and the CAKs stored with PERSIST. -/
structure Keyring where
  oper : Option (List Byte) := none
  admin : Option (List Byte) := none
  caks : List Cak := []
  deriving DecidableEq, Repr

/-- What a device section sets outside the CORE group (Table 14-7): the operating mode, the Triplet devices, WINDOW_S, the
host confirmation, MEMBER and PEER_EP. -/
structure DeviceSet where
  mode : Nat := 0
  names : List Nat := []
  window : Nat := 0
  confirm : Nat := 0
  member : Nat := 0
  peer : Nat := 0
  deriving DecidableEq, Repr

/-- Start-up and update (chapter 14): flash bytes (an unlisted byte reads 0xFF, erased), fuses, the record the running
image came from, the running image's store formats, the configuration modes of the device section, the flash
operation a command waits for, and the fuse steps that failed and are repeated at the next start (R333). `before` is what the
device section of the store in loading found, and `spareAsk` the spares it requests (R338, R244). -/
structure Boot where
  flash : SMap Byte := []
  fuses : Fuses := {}
  keyring : Keyring := {}
  running : BootRec := {}
  slot : Nat := 0
  fmtMin : Nat := 0
  fmtMax : Nat := 255
  imageVer : Nat := 1
  revoke : Nat := 0
  imageRun : Bool := false
  triedStore : List Nat := []
  mode : Nat := 0
  loadRefused : Bool := false
  applyWait : Bool := false
  watchdog : Bool := false
  confirm : Bool := false
  upd : Update := {}
  flashWait : Option (Nat × FlashOp) := none
  fuseOwed : Option (Nat × List Nat) := none
  names : List Nat := []
  before : DeviceSet := {}
  spareAsk : List (BitVec 5) := []
  deriving DecidableEq, Repr

/-- A session of one path (R353 to R357): STATE, the level asked for, the two nonces, the key it opened with, FAILS, LOCK_S
and the eight data words. -/
structure Session where
  state : Nat := 0
  asked : Nat := 0
  dn : List Byte := []
  hn : List Byte := []
  key : List Byte := []
  fails : Nat := 0
  lockS : Nat := 0
  data : List W32 := [0, 0, 0, 0, 0, 0, 0, 0]
  deriving DecidableEq, Repr

/-- A fetched work queue entry: its ring index and its 64-bit words. -/
structure WqEntry where
  idx : Nat
  words : List W64
  deriving DecidableEq, Repr

/-- A work queue beside its registers (R361, R362): the entry cache, the index INVAL stopped the fetch at, and the
entry in execution with the level it started at. -/
structure WorkQueue where
  cache : List WqEntry := []
  stop : Option Nat := none
  exec : Option WqEntry := none
  level : Nat := 0
  deriving DecidableEq, Repr

/-- A LOAD_ARM waiting for its channel's pulse (R375): the queue and entry it came by, and its arguments. -/
structure LoadArm where
  wq : Nat
  entry : WqEntry
  target : Nat
  slices : Nat
  count : Nat
  index : Nat
  la : Nat
  pulsed : Bool := false
  deriving DecidableEq, Repr

/-- A slot of an inject ring that belongs to the resident services (R369, R370): the port, the program entry and the
frame. -/
structure InjSlot where
  port : Nat
  entry : Nat
  frame : List Byte
  deriving DecidableEq, Repr

/-- A notice of the learning service's ring (R139): kind (0 learn insert, 1 move, 2 ageing removal, 3 uncorrectable
entry), table, store, whether in the CAM, the bucket and way or CAM index, key and result, and whether the table's keys are
longer than 64 bits. -/
structure XNotice where
  kind : Nat
  table : Nat
  store : Nat
  cam : Bool
  idx : Nat
  key : Nat
  result : Nat
  wide : Bool
  deriving DecidableEq, Repr

/-- The host interface beside its registers: sessions, work queues, the HST_HALT word of a malformed entry that waits for the
commands in execution (Table 15-14), armed loads (by DMA channel), BFD sessions, packets the service dropped for their A bit,
the slots in management SRAM of punt rings (port, frame) and inject rings that belong to the resident services, the last
descriptor of each DMA channel that may still be followed by a late error, none for the copy of the exporter (R375), the bytes
of management SRAM that the image or DMA has written, and the learning notices in the ring there that wait for mcore2 (R139). -/
structure HostIf where
  pcie : Session := {}
  smbus : Session := {}
  wq : SMap WorkQueue := []
  halt : Option W64 := none
  arms : SMap LoadArm := []
  bfd : SMap BfdSession := []
  bfdAuthDrops : Nat := 0
  resPunt : SMap (List (Nat × List Byte)) := []
  resInj : SMap (List InjSlot) := []
  late : SMap (Option Nat) := []
  sram : SMap Byte := []
  learned : List XNotice := []
  deriving DecidableEq, Repr

/-- One statistics cache entry (R388): the four accumulators of its record in bank A (or the only bank) and in bank B,
and the flushes of the sweep interval it has waited. -/
structure StatEntry where
  a : List Nat := [0, 0, 0, 0]
  b : List Nat := [0, 0, 0, 0]
  deriving DecidableEq, Repr

/-- An update on its way to the statistics unit (R387): record key, the amounts for its counted fields, and whether it
is stamped with a pica at or after the snapshot boundary. -/
structure StatPost where
  key : Nat
  add : List Nat
  pica : Nat
  deriving DecidableEq, Repr

/-- The statistics unit (R386 to R392): queued updates (oldest first), cache entries by record key and their order of use
(least recent first), entries evicted and not yet flushed, the counted values of the records in HBM,
a snapshot asked for or flushing (its boundary P), the exporter's state, frames counted at the last CORE reset, the flush
slots used this pica and the updates each bank has taken in it. -/
structure Stats where
  posts : List StatPost := []
  cache : SMap StatEntry := []
  lru : List Nat := []
  evicted : SMap (List Nat) := []
  recs : SMap (List Nat) := []
  snapAsked : Bool := false
  snapping : Option Nat := none
  exporting : Bool := false
  exportWait : Bool := false
  pulsed : Bool := false
  expired : Bool := false
  inside : Nat := 0
  flushed : Nat := 0
  taken : SMap Nat := []
  deriving DecidableEq, Repr

/-- Power and temperature (R393 to R399): an exit or entry in progress per group (8 is the device), P4 draining and
relocking. -/
structure Power where
  leaving : List Nat := []
  p4Drain : Bool := false
  p4Relock : Bool := false
  deriving DecidableEq, Repr

end Sys2Proof.Machine
end

