-- ==== Sys2Proof/Machine/TypesB.lean ====
section
/-! DEFINITION. The parts of the state that the line side of FD holds (chapters 3 and 4). -/
namespace Sys2Proof.Machine

/-- An alignment machine (R64): locked with the next expected position and the errored patterns in a row, or hunting
with at most four candidates (next position, count). HUNT and CONFIRM differ only in whether a candidate is open. -/
structure Align where
  locked : Bool := false
  cands : List (Nat × Nat) := []
  expect : Nat := 0
  err : Nat := 0
  deriving DecidableEq, Repr

/-- The overhead an OTN port follows (R62, R63, R67): the last MFAS and its runs, the trail trace bytes of the multiframe
in progress with the last whole ones and how often in a row they came, the payload type likewise, whether a TTI was accepted,
the runs of BDI and STAT, how many frames in a row had another STAT than each of AIS (7), LCK (5) and OCI (6), and the BIP-8
counts to return as BEI. -/
structure OtnRx where
  mfas : Option Nat := none
  badRun : Nat := 0
  goodRun : Nat := 0
  smBuf : List Byte := []
  smLast : List Byte := []
  smRun : Nat := 0
  pmBuf : List Byte := []
  pmLast : List Byte := []
  pmRun : Nat := 0
  ptLast : Nat := 0
  ptRun : Nat := 0
  ptAcc : Option Nat := none
  smBdiRun : Nat := 0
  smBdiVal : Bool := false
  pmBdiRun : Nat := 0
  pmBdiVal : Bool := false
  smAcc : Bool := false
  pmAcc : Bool := false
  stat : Nat := 1
  statRun : Nat := 0
  other : SMap Nat := []
  smBei : Nat := 0
  pmBei : Nat := 0
  deriving DecidableEq, Repr

/-- GFP-F delineation (R67). -/
inductive GfpState where
  | hunt | presync | sync
  deriving DecidableEq, Repr

/-- Delineation state and the correct cHECs in a row of PRESYNC. -/
structure Gfp where
  state : GfpState := .hunt
  run : Nat := 0
  deriving DecidableEq, Repr

/-- A two-step transmit timestamp (R49, R51). -/
structure TxStamp where
  tag : Nat
  sec : Nat
  ns : Nat
  deriving DecidableEq, Repr

/-- The line interface beside its registers: alignment machines and the marker identities last seen by port × 32 + lane, the
received lanes of each aligned port in the order of their identities, OTN overhead and GFP state by port, the payload
scrambler of each OTN port, live counters by port × 32 + counter, the degrade rule's seconds above and below by port × 4 +
kind, and the two-step FIFOs. -/
structure Lines where
  align : SMap Align := []
  ident : SMap Nat := []
  order : SMap (List Nat) := []
  scram : SMap (BitVec 43) := []
  otn : SMap OtnRx := []
  gfp : SMap Gfp := []
  live : SMap Nat := []
  degHi : SMap Nat := []
  degLo : SMap Nat := []
  txTs : SMap (List TxStamp) := []
  deriving DecidableEq, Repr

/-- Where a frame in the ingress path came from: a line port, or an inject ring with its descriptor's TS_TAG,
ORDER_DOMAIN, TS_MODE, ENTRY and initial user row (R369). -/
structure Inject where
  tsTag : Nat
  domain : Nat
  tsMode : Nat
  entry : Nat
  user : W64
  deriving DecidableEq, Repr

/-- A frame between the line port and the parser, without FCS, with what the earlier stages recorded of it (R48, R83,
R101). -/
structure RxFrame where
  port : Nat
  bytes : List Byte
  sec : Nat := 0
  ns : Nat := 0
  rxSa : Nat := 0
  prot : Bool := false
  valid : Bool := false
  espFrag : Bool := false
  espNoSa : Bool := false
  espDec : Bool := false
  inject : Option Inject := none
  entered : Nat := 0
  deriving DecidableEq, Repr

/-- A security association (Tables 4-4 and 4-5), the SA it has switched to (R91), and whether its PN_EXHAUSTED notice is out. -/
structure SaEntry where
  valid : Bool := false
  type : Nat := 0
  ext : Bool := false
  pin : Bool := false
  tunnel : Bool := false
  ipv6 : Bool := false
  an : Nat := 0
  id32 : Nat := 0
  nextPn : Nat := 0
  limit : Nat := 0
  nextValid : Bool := false
  nextSa : Nat := 0
  replayWin : Nat := 0
  salt : Nat := 0
  sci : Nat := 0
  key : List Byte := []
  tunDst : Nat := 0
  window : Nat := 0
  switched : Option Nat := none
  spent : Bool := false
  deriving DecidableEq, Repr

/-- An RX SC CAM entry (Table 4-3). -/
structure ScEntry where
  valid : Bool := false
  port : Nat := 0
  sci : Nat := 0
  anValid : Nat := 0
  sa : List Nat := [0, 0, 0, 0]
  deriving DecidableEq, Repr

/-- A rekey of the MKA service in progress (R97): its association number, the two SA indices, the key number and the key. -/
structure Rekey where
  an : Nat
  rxSa : Nat
  txSa : Nat
  kn : Nat
  sak : List Byte
  deriving DecidableEq, Repr

/-- The live peer of a port: its member identifier and message number, its SCI and its key server priority. -/
structure MkaPeer where
  member : List Byte
  number : Nat
  sci : Nat
  prio : Nat
  deriving DecidableEq, Repr

/-- MKA on one port (R95 to R97): run by the store with its cipher suite, SAK lifetime, key server priority and SCI; the
device's member identifier, message number and last key number, the live peer, the last peer heard that is not live, key
server role, secured state, the association number in use, a rekey wanted or in progress, and the old RX SAs that still stand,
oldest first. -/
structure MkaPort where
  run : Bool := false
  xpn : Bool := true
  sakLife : Nat := 0
  prio : Nat := 0
  sci : Nat := 0
  scIdx : Nat := 0
  mi : List Byte := []
  msg : Nat := 0
  kn : Nat := 0
  peer : Option MkaPeer := none
  heard : Option MkaPeer := none
  crowd : Bool := false
  server : Bool := false
  secured : Bool := false
  an : Nat := 0
  want : Bool := false
  rekey : Option Rekey := none
  oldRx : List (Nat × Nat) := []
  deriving DecidableEq, Repr

/-- Link crypto beside its registers: the SA region of HBM, the SA cache with its order of use (least recent first), the
RX SC CAM, the ESP buffers of each slice, notices (kind, SA), CAKs held by the management cores, MKA, and the slice
ingress FIFOs behind it (R27). -/
structure Crypto where
  sa : SMap SaEntry := []
  cache : SMap SaEntry := []
  lru : List Nat := []
  cam : SMap ScEntry := []
  espIn : SMap (List RxFrame) := []
  notices : List (Nat × Nat) := []
  fifo : SMap (List RxFrame) := []
  deriving DecidableEq, Repr

/-- The MKA service's memory on the management cores: CAKs by port (loaded or read from the keyring) and ports. -/
structure Mka where
  caks : SMap (List Byte × List Byte) := []
  ports : SMap MkaPort := []
  deriving DecidableEq, Repr

end Sys2Proof.Machine
end

