-- ==== Sys2Proof/Machine/TypesC.lean ====
section
/-! DEFINITION. The parts of the state behind the line side of FD: parser banks (chapter 5), exact-match tables
(chapter 6), the ternary die (chapter 7) and the packet engines with their reorder buffers (chapter 8). -/
namespace Sys2Proof.Machine

/-- What the walk of R108 leaves (R111). -/
structure ParseOut where
  stack : List (Nat × Nat) := []
  fv : List Byte := []
  payload : Nat := 0
  fail : Nat := 0
  visits : Nat := 0
  deriving DecidableEq, Repr

/-- What the matcher reports (R113): the group vector and the first four matching indices. -/
structure PatternOut where
  groups : Nat := 0
  idx : List Nat := []
  deriving DecidableEq, Repr

/-- Parser and classifier memories: nodes, transitions, start tables and patterns of both banks as 64-bit words, keyed by
(slice × 2 + bank) × size + index; mirror sampling counters by slice × 64 + session; heads admitted and node visits made
in this pica by slice, and slices whose heads waited for visits in it. -/
structure Parser where
  nodes : SMap (List Nat) := []
  trans : SMap (List Nat) := []
  starts : SMap Nat := []
  pats : SMap (List Nat) := []
  sample : SMap Nat := []
  heads : SMap Nat := []
  visits : SMap Nat := []
  waited : List Nat := []
  deriving DecidableEq, Repr

/-- An overflow CAM entry: the entry and its two buckets (Table 6-4). -/
structure CamEntry where
  e : XEntry
  a : Nat
  b : Nat
  deriving DecidableEq, Repr

/-- A lookup waiting at a store (R132): its thread with generation and target register, table, key, flags and the learn
result, and whether the table was enabled and the store cleared when it was issued (R125, R143). -/
structure XReq where
  thread : Nat
  gen : Nat
  rd : Nat
  table : Nat
  key : Nat
  touch : Bool
  learn : Bool
  result : Nat
  en : Bool
  ready : Bool
  deriving DecidableEq, Repr

/-- A learn request (R137). -/
structure LearnReq where
  table : Nat
  key : Nat
  result : Nat
  deriving DecidableEq, Repr

/-- An operation in the FIFO of an update engine (R135): a removal that the sweeper queued, a learn request, the command that
a work queue has in execution, a record of the mirror stream, or the freeing of a disabled table with its partition (base and
buckets). -/
inductive XOp where
  | removal (table key : Nat)
  | learn (r : LearnReq)
  | command (wq : Nat)
  | mirror (r : MirRec)
  | free (table base size : Nat)
  deriving DecidableEq, Repr

/-- The operation is a work queue's command. -/
def XOp.isCommand (o : XOp) : Bool := match o with | .command _ => true | _ => false

/-- The operation is a removal that the sweeper queued. -/
def XOp.isRemoval (o : XOp) : Bool := match o with | .removal _ _ => true | _ => false

/-- An outstanding drain fence (R145, R146). -/
structure Fence where
  gen : Nat
  pica : Nat
  slow : Bool := false
  deriving DecidableEq, Repr

/-- The exact-match stores: bucket entries by store × 2^25 + bucket × 4 + way, CAM entries by store × 2^17 + index, the
queued lookups and learn requests of each store, the operations in each store's update FIFO, each table's sweeper accumulator
and next bucket, outstanding fences, oldest first, and what a store has served in this pica: its lookups, the bucket reads of
its banks (near, by bank) or of the store (far, 32), and whether its sweeper made a visit. -/
structure Exm where
  ent : SMap XEntry := []
  cam : SMap CamEntry := []
  reqs : SMap (List XReq) := []
  learn : SMap (List LearnReq) := []
  fifo : SMap (List XOp) := []
  acc : SMap Nat := []
  pos : SMap Nat := []
  fences : List Fence := []
  looked : SMap Nat := []
  reads : SMap Nat := []
  swept : List Nat := []
  deriving DecidableEq, Repr

/-- A row of TD with its shadow (R148, R151): VALID and RESULT count in the first row of an entry. -/
structure TdRow where
  valid : Bool := false
  value : Nat := 0
  mask : Nat := 0
  result : Nat := 0
  deriving DecidableEq, Repr

/-- What a row of the ternary array holds that differs from its shadow. -/
structure TdArr where
  valid : Bool := false
  value : Nat := 0
  mask : Nat := 0
  deriving DecidableEq, Repr

/-- Who waits for a search: the classifier of a thread's packet (search 0 or 1), or LKT of a thread's program with its
target register. -/
inductive TdFor where
  | cls (search : Nat) | eng (rd : Nat)
  deriving DecidableEq, Repr

/-- A queued search (R155); `err` says that it has met one port error (R168). -/
structure TdReq where
  thread : Nat
  gen : Nat
  dest : TdFor
  table : Nat
  width : Nat
  key : Nat
  err : Bool := false
  deriving DecidableEq, Repr

/-- A run move in progress (R163). -/
structure RunMove where
  src : Nat
  dst : Nat
  count : Nat
  deriving DecidableEq, Repr

/-- An operation that waits at the maintenance port (R162): a run move, a work queue's command or a channel's armed load, each
with the rows it is to write. -/
inductive TdOp where
  | run (m : RunMove)
  | command (q : Nat) (rows : List Nat)
  | arm (ch : Nat) (rows : List Nat)
  deriving DecidableEq, Repr

/-- The ternary die: the rows as the verify shadow and the result memory hold them, the rows of the array that differ from the
shadow, search port queues, the slots each port has used of its pica, the requests each slice withholds, port error picas, the
scrubber's next row, the maintenance port's FIFO, the enabled blocks (times 720,720) over passes of the last 2^20 searches,
the band (prefix length or priority) of each managed entry, and whether the ports were tested since the last PKG reset. -/
structure Tern where
  rows : SMap TdRow := []
  bad : SMap TdArr := []
  q : SMap (List TdReq) := []
  held : SMap (List TdReq) := []
  errs : SMap (List Nat) := []
  scrub : Nat := 0
  fifo : List TdOp := []
  slots : SMap Nat := []
  recent : List Nat := []
  bands : SMap Nat := []
  tested : Bool := false
  deriving DecidableEq, Repr

/-- What an output of a packet is (Table 11-1): the frame sent by the program, a mirror copy, or a copy or frame for a punt
ring with its reason; or a frame the fabric brought, or a replica of the ingress or egress stage. -/
inductive PktKind where
  | send | mirror | punt (ring reason : Nat) | fabric | replica (egress : Bool)
  deriving DecidableEq, Repr

/-- A frame with its descriptor, from the end of its program on (Table 8-3, R212, R217): stored bytes without FCS, the
body bytes its output references and skips, its ingress port, entry pica and receive time, the descriptor fields, its
802.1CB sequence number, colour, whether it is a copy, its action word's USER and its receive SA (Table 15-11), and the chains it references in the buffer store. -/
structure Pkt where
  kind : PktKind := .send
  bytes : List Byte := []
  body : Nat := 0
  port : Nat := 0
  entered : Nat := 0
  rxSec : Nat := 0
  rxNs : Nat := 0
  qid : Nat := 0
  mc : Bool := false
  group : Nat := 0
  cbEn : Bool := false
  stream : Nat := 0
  dbl : Bool := false
  fseq : Nat := 0
  espEn : Bool := false
  sa : Nat := 0
  tsMode : Nat := 0
  tsTag : Nat := 0
  adj : Nat := 0
  egrArg : Nat := 0
  policer : Nat := 0
  polEn : Bool := false
  lenAdj : Int := 0
  yellow : Bool := false
  copy : Bool := false
  user : Nat := 0
  rxSa : Nat := 0
  chains : List Nat := []
  deriving DecidableEq, Repr

/-- What a sleeping thread waits for (R173, R187). -/
inductive Await where
  | reg (r : Nat) | cap | all | room
  deriving DecidableEq, Repr

/-- Thread states (Table 8-1); RUNNING lasts within one command. -/
inductive ThState where
  | free | loading | ready | sleeping (a : Await) | ending
  deriving DecidableEq, Repr

/-- The result of a classifier search: not run, in flight, or its status (0 miss, 1 hit, 2 error), error kind, row and
word. -/
inductive Srch where
  | off | wait | done (status err row word : Nat)
  deriving DecidableEq, Repr

/-- A thread and its packet (R171 to R178): generation, reorder entry, the frame as edited, bank and program counter,
registers (an unlisted one is the free value of its seed), pending registers and lookups outstanding, metadata rows,
scratch, ingress record, edits, copies made, length at admission, body bytes and those seen through HDEL, the declared
domain, admission pica and deadline, the classifier's parse, searches and action, and whether the instruction at the program
counter has been issued once already, to sleep at the lookup cap. -/
structure Thread where
  state : ThState := .free
  gen : Nat := 0
  rob : Nat := 0
  frame : Option RxFrame := none
  bytes : List Byte := []
  bank : Nat := 0
  entry : Nat := 0
  pc : Nat := 0
  seed : Nat := 0
  regs : SMap W64 := []
  pend : List Nat := []
  outst : Nat := 0
  md : List W64 := []
  scratch : List Byte := []
  ing : List W64 := []
  edits : Nat := 0
  copies : Nat := 0
  admLen : Nat := 0
  skip : Nat := 0
  adm : Nat := 0
  deadline : Nat := 0
  parse : ParseOut := {}
  pats : PatternOut := {}
  profile : Nat := 0
  s0 : Srch := .off
  s1 : Srch := .off
  word : Nat := 0
  settled : Bool := false
  again : Bool := false
  deriving DecidableEq, Repr

/-- A reorder entry (R191, R192): its number, the declared domain, whether the packet has ended, its own sent frame, and
outputs (copies, a punted frame) that leave without order. -/
structure RobEntry where
  id : Nat
  adm : Nat
  len : Nat
  domain : Option Nat := none
  ended : Bool := false
  sent : Option Pkt := none
  outs : List Pkt := []
  deriving DecidableEq, Repr

/-- A lookup response on its way to a thread (R187): the words for the target registers. -/
structure Resp where
  thread : Nat
  gen : Nat
  rd : Nat
  words : List W64
  deriving DecidableEq, Repr

/-- A performance counter sample (R200). -/
structure PcSample where
  pc : Nat
  engine : Nat
  thread : Nat
  counter : Nat
  deriving DecidableEq, Repr

/-- The packet engines: threads, program words and entry tables of both banks by slice × 2 + bank, cluster memory
(replicated words, local words by cluster), responses in flight, reorder buffers by slice, the cluster used last, retired
engines, error picas, counters' pending freeze and snapshot, samples, releases of this pica, old-bank users of a
swap, engines on which a thread became FREE in this pica, and clusters whose cycle counter has counted this pica already. -/
structure Engines where
  threads : SMap Thread := []
  prog : SMap W32 := []
  plen : SMap Nat := []
  pent : SMap (Nat × Nat) := []
  crep : SMap W64 := []
  cloc : SMap W64 := []
  resp : List Resp := []
  rob : SMap (List RobEntry) := []
  nextRob : Nat := 0
  lastCl : SMap Nat := []
  errs : SMap (List Nat) := []
  checking : Nat := 0
  swapping : Nat := 0
  frozen : Bool := false
  freezeAsk : Option Bool := none
  snapAsk : Bool := false
  samples : SMap (List PcSample) := []
  relUsed : SMap Nat := []
  freed : List Nat := []
  lapped : List Nat := []
  deriving DecidableEq, Repr

end Sys2Proof.Machine
end

