-- ==== Sys2Proof/Machine/TypesD.lean ====
section
/-! DEFINITION. The parts of the state that QD and the links hold: Triplet lanes and buffers (chapters 9 and 13), stacked
memory (chapter 10), queues (chapter 11), the fabric (chapter 12) and the Doublet (chapter 13). -/
namespace Sys2Proof.Machine

/-- A descriptor group on its way from FD to QD (R212): slice, transfer tag, outputs, admission length, and the number by
which the vote windows name it. -/
structure Group where
  slice : Nat
  tag : Nat
  admLen : Nat
  outs : List Pkt
  deriving DecidableEq, Repr

/-- A frame data transfer on a slice channel (R211): tag and bytes. -/
structure Transfer where
  tag : Nat
  bytes : Nat
  deriving DecidableEq, Repr

/-- A group or transfer that waits for its partner, with its arrival pica (R213). -/
structure Waiting where
  tag : Nat
  group : Option Group
  bytes : Nat
  since : Nat
  deriving DecidableEq, Repr

/-- A sent vote window (R303): its number and the descriptors it carries. -/
structure VoteWin where
  win : Nat
  descs : List Nat
  deriving DecidableEq, Repr

/-- One direction of the Triplet lanes (R303 to R306): the sender's windows not yet acknowledged and descriptors of this
pica, whether the peer asked for a replay; the receiver's last good window, failures in a row, and whether it asks for a
replay; and each lane's recent disagreements. -/
structure TplDir where
  hist : List VoteWin := []
  queue : List Nat := []
  good : Option Nat := none
  fails : Nat := 0
  nak : Bool := false
  errs : SMap (List Nat) := []
  deriving DecidableEq, Repr

/-- A link entry (Table 9-2); an unlisted one was never taken and reads as free. A freed one keeps its other fields. -/
structure LinkEntry where
  state : Bool := false
  first : Bool := false
  last : Bool := false
  mark : Bool := false
  owners : Nat := 0
  bytes : Nat := 0
  next : Nat := 0
  deriving DecidableEq, Repr

/-- A bundle of a queue (R217, Table 9-3): its handle and header (QID, RECORDS, USED, CONT and NEXT), the frames whose records
end in it, with their queue records, where each of those records lies in its record bytes (from, to), and whether the last
record that starts or goes on in it continues in the next bundle. -/
structure Bundle where
  handle : Nat := 0
  qid : Nat := 0
  records : Nat := 0
  used : Nat := 32
  cont : Bool := false
  next : Nat := 0
  frames : List Pkt := []
  spans : List (Nat × Nat) := []
  tail : Bool := false
  deriving DecidableEq, Repr

/-- A report of the Loupe (R223). -/
structure LoupeRep where
  audit : Nat
  kind : Nat
  handle : Nat
  deriving DecidableEq, Repr

/-- The Loupe (R221): current mark value, audits started, the next holder and link entry, buffers stale in the audit
before, whether this audit has reported, and the pica from which the next audit's wait counts. -/
structure Loupe where
  mark : Bool := false
  audit : Nat := 0
  walk : Nat := 0
  sweeping : Bool := false
  sweep : Nat := 0
  stale : List Nat := []
  nowStale : List Nat := []
  said : Bool := false
  since : Nat := 0
  reports : List LoupeRep := []
  deriving DecidableEq, Repr

/-- The buffer manager: link entries by handle, free lists by pool (indices from the first number up were never used;
then returned handles, oldest first), groups in flight on the Triplet lanes by number,
accepted groups and channel transfers by slice, tags given and expected, partners waited for, channel bytes counted by
slice, free bundles (handles never used yet from `fresh` up, and returned ones), waiting bundles as (queue, bundle),
link entries found uncorrectable, bundles written and read this pica, the
Loupe, and both directions of the Triplet lanes. -/
structure Bufs where
  link : SMap LinkEntry := []
  pools : SMap (Nat × List Nat) := []
  building : Bool := false
  flight : SMap Group := []
  nextGroup : Nat := 0
  desc : SMap (List Group) := []
  chan : SMap (List Transfer) := []
  chanBytes : SMap Nat := []
  tagOut : SMap Nat := []
  tagIn : SMap Nat := []
  tagData : SMap Nat := []
  wait : SMap (List Waiting) := []
  bundleFresh : Nat := 0
  bundleFree : List Nat := []
  full : List (Nat × Bundle) := []
  badLinks : List Nat := []
  wrote : Nat := 0
  read : Nat := 0
  loupe : Loupe := {}
  fq : TplDir := {}
  qf : TplDir := {}
  deriving DecidableEq, Repr

/-- A read of stacked memory in flight: its LA, bytes and class (R230). -/
structure HbmRead where
  la : Nat
  bytes : Nat
  cls : Nat
  deriving DecidableEq, Repr

/-- Stacked memory beside its registers (chapter 10): the bytes of the management region (an unlisted one reads 0), poisoned
32-byte bursts by LA / 32, logical pseudo-channel maps by stack × 32 + lpc, recent uncorrectable and command errors by stack ×
32 + pch, the patrol scrub's position, and whether the stacks were trained since the last PKG release; the HBM_ARB_CFG that
applies until the next pica boundary, the bursts accepted and found wanting in this pica and those kept for the waiting
requests, by stack × 8 + class, and the reads in flight. -/
structure Hbm where
  mgmt : SMap Byte := []
  poison : List Nat := []
  map : SMap Nat := []
  ue : SMap (List Nat) := []
  cmd : SMap (List Nat) := []
  scrub : Nat := 0
  trained : Bool := false
  arb : Option W64 := none
  used : SMap Nat := []
  unmet : SMap Nat := []
  kept : SMap Nat := []
  reads : List HbmRead := []
  deriving DecidableEq, Repr

/-- A queue's frames and counts (R218, R251, R252): frames on die ahead of the bundles, bundles in HBM in order, restored
bundles whose last record continues in the next (oldest first), frames of a restored bundle that wait for buffers, frames of
the open bundle with its bytes used and how many of them continue a record, frames a flush has still to drop, whether it
spills, and whether a restore is under way. ONDIE and TOTAL count stored bytes, FRAMES frames. -/
structure Queue where
  frames : List Pkt := []
  hbm : List Bundle := []
  tails : List Bundle := []
  restoring : Option Bundle := none
  restored : List Pkt := []
  opened : List Pkt := []
  openUsed : Nat := 0
  openLead : Nat := 0
  spilling : Bool := false
  deriving DecidableEq, Repr

/-- A policer's token counts in millibytes and its last use (R259). -/
structure Tokens where
  c : Nat
  e : Nat
  last : Nat
  deriving DecidableEq, Repr

/-- A node's buckets in millibytes and the rate and burst words in force, which the node table's words replace at the next
refill (R266, R267). -/
structure Bucket where
  c : Int := 0
  p : Int := 0
  w0 : Nat := 0
  w1 : Nat := 0
  deriving DecidableEq, Repr

/-- A bank of a Galley (R269): entries by index, those written since the last switch, base time, cycle and length. The
registers hold these four of the inactive bank. -/
structure GalleyBank where
  entries : SMap Nat := []
  written : List Nat := []
  sec : Nat := 0
  ns : Nat := 0
  cycle : Nat := 0
  len : Nat := 0
  deriving DecidableEq, Repr

/-- A Galley (R269, R270): both banks, the active one, whether its cycle runs or a start is awaited (with the bank that
starts and its aligned start in ns), and the entry in progress with the start of its cycle. -/
structure Galley where
  a : GalleyBank := {}
  b : GalleyBank := {}
  active : Bool := false
  start : Option (Bool × Nat) := none
  running : Bool := false
  cycle : Nat := 0
  entry : Nat := 0
  deriving DecidableEq, Repr

/-- A frame in the replicator: whether its replicas are of the egress stage (R257). -/
structure McItem where
  p : Pkt
  egress : Bool
  deriving DecidableEq, Repr

/-- The queue manager (chapter 11): descriptors by QID, queues by QID, group heads and members, the replication FIFO, the
frame in replication with its members still to serve, policers and their tokens, nodes by level × 2^18 + number with their
buckets, DWRR rotations and deficits by ((level × 2^18 + node) × 2 + tier) × 8 + priority (deficits by that key × 2^20 +
child), Galleys, frames scheduled toward FD, frames for the egress editors, edited frames in the egress ESP buffers by slice,
frames to send by port, frames for punt rings by ring, arrivals still to be admitted, a flush in progress, and this pica's
shares: nodes refilled, replicas made, and selections by slice. -/
structure Ques where
  desc : SMap Nat := []
  q : SMap Queue := []
  heads : SMap Nat := []
  members : SMap Nat := []
  mc : List McItem := []
  mcWork : Option (McItem × List Nat) := none
  pol : SMap (Nat × Nat) := []
  tok : SMap Tokens := []
  node : SMap (Nat × Nat) := []
  bucket : SMap Bucket := []
  rot : SMap (List Nat) := []
  deficit : SMap Int := []
  galley : SMap Galley := []
  flight : SMap (Nat × Pkt) := []
  nextFlight : Nat := 0
  toEdit : List (Nat × Pkt) := []
  espOut : SMap (List (Nat × Pkt)) := []
  toLine : SMap (List (Pkt × List Byte)) := []
  toPunt : SMap (List Pkt) := []
  arrivals : List Pkt := []
  flush : Option (Nat × List Pkt) := none
  refilled : List Nat := []
  replicas : Nat := 0
  picks : SMap Nat := []
  deriving DecidableEq, Repr

/-- A VOQ's credit state (R286): its balance, ON, the pica of the last ON or grant, whether it held a frame when last
looked at, and the pica it last sent OFF in. -/
structure Voq where
  bal : Int := 0
  on : Bool := false
  lastOn : Nat := 0
  held : Bool := false
  off : Option Nat := none
  deriving DecidableEq, Repr

/-- A source flow (R283, R289): the next SEQ, the bytes of the record in progress that have not left, its frame, the VOQ
served last, and the accept pointer. -/
structure Flow where
  seq : Nat := 0
  rest : List Byte := []
  frame : Option Pkt := none
  lastVoq : Nat := 0
  accept : Nat := 0
  deriving DecidableEq, Repr

/-- A cell waiting for its lane: its bytes, and the frames whose records end in it. -/
structure OutCell where
  bytes : List Byte
  last : List Pkt := []
  deriving DecidableEq, Repr

/-- A credit message waiting to be sent (Table 12-4), with the pica it was made in. -/
structure Credit where
  kind : Nat
  tc : Nat
  count : Nat
  dest : Nat
  voq : Nat
  born : Nat := 0
  deriving DecidableEq, Repr

/-- A held data cell of a context: payload in use and FH_OFF. -/
structure HeldCell where
  payload : List Byte
  fh : Nat
  deriving DecidableEq, Repr

/-- A reassembly context (R290): NEXT, EPOCH, held cells by SEQ, the pica its gap began, the bytes of the record in progress,
whether it skips to the next record start, and how many bytes of the record it skips are surely still to come. -/
structure Reasm where
  next : Nat
  epoch : Nat
  held : SMap HeldCell := []
  gap : Option Nat := none
  stream : List Byte := []
  skip : Bool := true
  owed : Nat := 0
  deriving DecidableEq, Repr

/-- A complete frame: its context, the frame, whether it is multicast, and whether it waits for buffers (R291). -/
structure FabFrame where
  ctx : Nat
  p : Pkt
  mc : Bool
  waits : Bool := false
  deriving DecidableEq, Repr

/-- An elimination window (R293). -/
structure ElimWin where
  valid : Bool
  top : Nat
  hist : Nat
  rogue : Nat
  last : Nat
  deriving DecidableEq, Repr

/-- An ON entry of the request table: source endpoint, VOQ and its class (R287). -/
structure OnEntry where
  src : Nat
  voq : Nat
  tc : Nat
  deriving DecidableEq, Repr

/-- The fabric interface beside its registers: alignment machines and lane frame counts by lane, lanes that last received
RETIRED, recent uncorrectable codewords by lane, the reach table (an unlisted entry has every bit set), VOQ credit, source
flows by endpoint × 8 + class (in standalone mode by (1,024 + egress slice) × 8 + class), cells waiting by link group, credit
messages by endpoint, grant pointers by group, control cells and slots used this pica, the request table by egress queue,
credit generators by port (credit and last pica), their rotations and deficits, reassembly contexts, complete frames, and
elimination windows by stream. -/
structure Fabric where
  align : SMap Align := []
  far : List Nat := []
  cnt : SMap Nat := []
  errs : SMap (List Nat) := []
  reach : SMap Nat := []
  voq : SMap Voq := []
  flows : SMap Flow := []
  out : SMap (List OutCell) := []
  ctl : SMap (List Credit) := []
  grant : SMap Nat := []
  ctlUsed : Nat := 0
  matched : Bool := false
  slotsUsed : SMap Nat := []
  req : SMap (List OnEntry) := []
  gen : SMap Nat := []
  rot : SMap (List Nat) := []
  deficit : SMap Int := []
  ctx : SMap Reasm := []
  done : List FabFrame := []
  elim : SMap ElimWin := []
  deriving DecidableEq, Repr

/-- An 802.1CB stream entry (Table 13-6), with the time of the last accept. -/
structure Stream where
  valid : Bool := true
  mode : Nat
  hvalid : Bool := false
  hist : Nat := 0
  seq : Nat := 0
  history : Nat := 0
  last : Nat := 0
  deriving DecidableEq, Repr

/-- A mirror data cell that the sender keeps (R309): its payload, FH_OFF, and the records that end in it. -/
structure TwinSend where
  payload : List Byte := []
  fh : Nat := 255
  ends : List MirRec := []
  deriving DecidableEq, Repr

/-- The Doublet beside its registers (chapter 13): twin-link lanes, the mirror queue, the record in progress with its bytes
that have not left, mirror cells not acknowledged and those to resend with the pica of the last acknowledgement, the next SEQ
to send and to take, lanes that owe a hello, what the peer's last hello said and when, whether ROLE_DOWN, a request for a
snapshot since the link rose, and RESYNC show in the own hellos, the pica of the last role change, a snapshot under way with
the positions of its near, far and last walks, and a demotion that waits for the mirror queue. -/
structure Twin where
  align : SMap Align := []
  far : List Nat := []
  cnt : SMap Nat := []
  errs : SMap (List Nat) := []
  queue : List MirRec := []
  txSeq : Nat := 0
  part : Option (MirRec × List Byte) := none
  unacked : List (Nat × TwinSend) := []
  toSend : List (Nat × TwinSend) := []
  acked : Nat := 0
  rxNext : Nat := 0
  due : List Nat := []
  peer : Option Hello := none
  lastHello : Nat := 0
  roleDown : Bool := false
  ask : Bool := false
  changed : Option Nat := none
  resync : Bool := false
  snap : Bool := false
  nearPos : Nat := 0
  farPos : Nat := 0
  tailPos : Nat := 0
  demoting : Bool := false
  deriving DecidableEq, Repr

/-- Role and arbiter state on the management die: a promotion that waits, the level of ARB_HEALTH, the seconds of the recent
fatal faults, and whether a permanent fault holds the HW_FAULT condition (R298). -/
structure Red where
  promoting : Bool := false
  health : Bool := false
  fatals : List Nat := []
  hw : Bool := false
  deriving DecidableEq, Repr

/-- Retirements that no register holds, which last until the next PKG reset (R300): fabric lanes and twin-link lanes. -/
structure Retired where
  fab : List Nat := []
  twin : List Nat := []
  deriving DecidableEq, Repr

end Sys2Proof.Machine
end

