-- ==== Sys2Proof/Machine/State.lean ====
section
/-! DEFINITION. The state of the GKP256 as plain data, the reasons a step stops, and the state after reset. -/
namespace Sys2Proof.Machine

/-- Why a command faults. -/
inductive Fault where
  /-- RAIL_OUT_OF_TOLERANCE: R413 calls the device's behaviour undefined until the next PORST_N pulse. Safe. -/
  | railOutOfTolerance
  deriving DecidableEq, Repr

/-- Why a command is refused. -/
inductive Refusal where
  /-- An arm of exec whose command has no meaning yet. Safe. -/
  | notModelled (mnemonic : String)
  deriving DecidableEq, Repr

/-- The whole device: the register file (a register's address maps to its value; an unlisted one reads its reset value),
one part per chapter, the model's own counter of free values and list of the last command's outside effects, and the
queue of commands that wait. -/
structure State where
  regs : SMap W64 := []
  bus : Bus := {}
  grp : Groups := {}
  pica : Picas := {}
  tb : TimeBase := {}
  evt : Events := {}
  boot : Boot := {}
  hst : HostIf := {}
  cnt : Stats := {}
  pwr : Power := {}
  lne : Lines := {}
  cry : Crypto := {}
  mka : Mka := {}
  prs : Parser := {}
  exm : Exm := {}
  trn : Tern := {}
  ppe : Engines := {}
  buf : Bufs := {}
  hbm : Hbm := {}
  que : Ques := {}
  fab : Fabric := {}
  cb : SMap Stream := []
  twin : Twin := {}
  red : Red := {}
  ret : Retired := {}
  free : Nat := 0
  out : List Out := []
  pending : List Instr := []
  deriving DecidableEq, Repr

/-- The state after power-on with PORST_N low: every register at its reset value, every group held in reset, memories
and queues empty, no command waiting. -/
def State.reset : State := {}

/-- A meaning's answer. -/
abbrev Ans := Host.Outcome State Fault Refusal

end Sys2Proof.Machine
end

