-- ==== Sys2Proof/Machine/Std.lean ====
section
/-! DEFINITION. The functions that the published standards of Table 0-4 define (R10): SHAKE256 and KMAC256, AES-256 with its
CMAC, GCM and key wrap, the key derivation of IEEE 802.1X, and Falcon-1024 verification. The spec names the standards and does
not repeat them (PRESUMED, log entry 3). -/
namespace Sys2Proof.Std

/-- Bytes as numbers. -/
def nats (l : List Byte) : List Nat := l.map (·.toNat)
/-- Numbers below 256 as bytes. -/
def bytes (l : List Nat) : List Byte := l.map (BitVec.ofNat 8)
/-- n bytes of a number, most significant first. -/
def be : Nat → Nat → List Nat
  | 0, _ => []
  | n + 1, v => be n (v / 256) ++ [v % 256]
/-- The number that bytes spell, most significant first. -/
def num (l : List Nat) : Nat := l.foldl (fun a b => a * 256 + b) 0

/-- A list in pieces of n; the fuel bounds their number. -/
def pieces {α : Type} (n : Nat) : Nat → List α → List (List α)
  | 0, _ => []
  | k + 1, l => if l.isEmpty then [] else l.take n :: pieces n k (l.drop n)
/-- A list in pieces of n bytes, n not 0. -/
def blocks {α : Type} (n : Nat) (l : List α) : List (List α) := pieces n (l.length / n + 1) l

/-! ### Keccak, SHAKE256 and KMAC256 (FIPS 202, NIST SP 800-185) -/

/-- Rotate a 64-bit lane to the left. -/
def rotl (v n : Nat) : Nat := (v <<< n ||| v >>> (64 - n)) % 2 ^ 64

/-- The rotation offsets of rho, by x + 5 y. -/
def rhoOff : List Nat := [0, 1, 62, 28, 27, 36, 44, 6, 55, 20, 3, 10, 43, 25, 39] ++ [41, 45, 15, 21, 8, 18, 2, 61, 56, 14]

/-- The round constants of iota. -/
def iotas : List Nat :=
  [0x0000000000000001, 0x0000000000008082, 0x800000000000808A, 0x8000000080008000, 0x000000000000808B, 0x0000000080000001] ++
  [0x8000000080008081, 0x8000000000008009, 0x000000000000008A, 0x0000000000000088, 0x0000000080008009, 0x000000008000000A] ++
  [0x000000008000808B, 0x800000000000008B, 0x8000000000008089, 0x8000000000008003, 0x8000000000008002, 0x8000000000000080] ++
  [0x000000000000800A, 0x800000008000000A, 0x8000000080008081, 0x8000000000008080, 0x0000000080000001, 0x8000000080008008]

/-- One round of Keccak-f[1600] on 25 lanes. -/
def keccakRound (a : List Nat) (rc : Nat) : List Nat :=
  let c := (List.range 5).map fun x => (List.range 5).foldl (fun v y => v ^^^ a.getD (x + 5 * y) 0) 0
  let d := (List.range 5).map fun x => c.getD ((x + 4) % 5) 0 ^^^ rotl (c.getD ((x + 1) % 5) 0) 1
  let t := (List.range 25).map fun i => a.getD i 0 ^^^ d.getD (i % 5) 0
  let b := (List.range 25).map fun i =>
    let src := (3 * (i / 5) + i % 5) % 5 + 5 * (i % 5)
    rotl (t.getD src 0) (rhoOff.getD src 0)
  (List.range 25).map fun i =>
    let at' := fun k => b.getD ((i % 5 + k) % 5 + 5 * (i / 5)) 0
    at' 0 ^^^ ((2 ^ 64 - 1 - at' 1) &&& at' 2) ^^^ (if i = 0 then rc else 0)

/-- Keccak-f[1600]. -/
def keccakF (a : List Nat) : List Nat := iotas.foldl keccakRound a

/-- Eight bytes as a lane, least significant first. -/
def lane (l : List Nat) : Nat := l.reverse.foldl (fun a b => a * 256 + b) 0

/-- A block of 136 bytes absorbed into the state. -/
def absorb (a : List Nat) (block : List Nat) : List Nat :=
  let w := (blocks 8 block).map lane
  keccakF ((List.range 25).map fun i => a.getD i 0 ^^^ w.getD i 0)

/-- The 136 bytes a state gives. -/
def squeeze (a : List Nat) : List Nat := (a.take 17).flatMap fun v => (be 8 v).reverse

/-- Blocks squeezed from a state. -/
def squeezes : Nat → List Nat → List Nat
  | 0, _ => []
  | n + 1, a => squeeze a ++ squeezes n (keccakF a)

/-- The sponge of rate 136 with its domain byte. -/
def sponge (dom : Nat) (m : List Nat) (n : Nat) : List Nat :=
  let z := 135 - m.length % 136
  let pad := if z = 0 then [dom ^^^ 0x80] else dom :: (List.replicate (z - 1) 0 ++ [0x80])
  (squeezes (n / 136 + 1) ((blocks 136 (m ++ pad)).foldl absorb (List.replicate 25 0))).take n

/-- SHAKE256: input and output length in bytes. -/
@[irreducible] def shake256 (x : List Byte) (n : Nat) : List Byte := bytes (sponge 0x1F (nats x) n)

/-- A number in its fewest bytes, at least one. -/
def minBytes (v : Nat) : List Nat := be (Nat.max 1 ((v.log2 + 8) / 8)) v
/-- left_encode of SP 800-185. -/
def leftEncode (v : Nat) : List Nat := (minBytes v).length :: minBytes v
/-- right_encode of SP 800-185. -/
def rightEncode (v : Nat) : List Nat := minBytes v ++ [(minBytes v).length]
/-- encode_string of SP 800-185. -/
def encodeString (l : List Nat) : List Nat := leftEncode (8 * l.length) ++ l
/-- bytepad to 136 bytes. -/
def bytepad (l : List Nat) : List Nat :=
  let x := leftEncode 136 ++ l
  x ++ List.replicate ((136 - x.length % 136) % 136) 0

/-- KMAC256 with L = 256: key, input, customization string. -/
@[irreducible] def kmac256 (k x : List Byte) (s : String) : List Byte :=
  let custom := s.toUTF8.toList.map (·.toNat)
  let pre := bytepad (encodeString [0x4B, 0x4D, 0x41, 0x43] ++ encodeString custom)
  bytes (sponge 0x04 (pre ++ bytepad (encodeString (nats k)) ++ nats x ++ rightEncode 256) 32)

/-! ### AES-256 (FIPS 197) -/

/-- The S-box, entry 0 in the most significant byte. -/
def sboxNum : Nat :=
  0x637C777BF26B6FC53001672BFED7AB76CA82C97DFA5947F0ADD4A2AF9CA472C0 <<< 1792 |||
  0xB7FD9326363FF7CC34A5E5F171D8311504C723C31896059A071280E2EB27B275 <<< 1536 |||
  0x09832C1A1B6E5AA0523BD6B329E32F8453D100ED20FCB15B6ACBBE394A4C58CF <<< 1280 |||
  0xD0EFAAFB434D338545F9027F503C9FA851A3408F929D38F5BCB6DA2110FFF3D2 <<< 1024 |||
  0xCD0C13EC5F974417C4A77E3D645D197360814FDC222A908846EEB814DE5E0BDB <<< 768 |||
  0xE0323A0A4906245CC2D3AC629195E479E7C8376D8DD54EA96C56F4EA657AAE08 <<< 512 |||
  0xBA78252E1CA6B4C6E8DD741F4BBD8B8A703EB5664803F60E613557B986C11D9E <<< 256 |||
  0xE1F8981169D98E949B1E87E9CE5528DF8CA1890DBFE6426841992D0FB054BB16 <<< 0

/-- SubBytes of one byte. -/
def sbox (x : Nat) : Nat := sboxNum >>> (8 * (255 - x)) % 256
/-- The inverse S-box, entry 0 in the most significant byte. -/
def invSboxNum : Nat :=
  0x52096AD53036A538BF40A39E81F3D7FB7CE339829B2FFF87348E4344C4DEE9CB <<< 1792 |||
  0x547B9432A6C2233DEE4C950B42FAC34E082EA16628D924B2765BA2496D8BD125 <<< 1536 |||
  0x72F8F66486689816D4A45CCC5D65B6926C704850FDEDB9DA5E154657A78D9D84 <<< 1280 |||
  0x90D8AB008CBCD30AF7E45805B8B34506D02C1E8FCA3F0F02C1AFBD0301138A6B <<< 1024 |||
  0x3A9111414F67DCEA97F2CFCEF0B4E67396AC7422E7AD3585E2F937E81C75DF6E <<< 768 |||
  0x47F11A711D29C5896FB7620EAA18BE1BFC563E4BC6D279209ADBC0FE78CD5AF4 <<< 512 |||
  0x1FDDA8338807C731B11210592780EC5F60517FA919B54A0D2DE57A9F93C99CEF <<< 256 |||
  0xA0E03B4DAE2AF5B0C8EBBB3C83539961172B047EBA77D626E169146355210C7D <<< 0

/-- InvSubBytes of one byte. -/
def invSbox (x : Nat) : Nat := invSboxNum >>> (8 * (255 - x)) % 256

/-- Multiplication by x in GF(2^8). -/
def xtime (a : Nat) : Nat := if 128 ≤ a then (2 * a ^^^ 0x11B) else 2 * a
/-- Multiplication in GF(2^8) by a number below 16. -/
def gmul (a k : Nat) : Nat :=
  let a2 := xtime a
  let a4 := xtime a2
  let pick := fun (n v : Nat) => if k / n % 2 = 1 then v else 0
  pick 1 a ^^^ pick 2 a2 ^^^ pick 4 a4 ^^^ pick 8 (xtime a4)

/-- The 60 words of the key schedule of AES-256, as bytes; `w` holds the words so far, the last first. -/
def expand : Nat → Nat → Nat → List (List Nat) → List (List Nat)
  | 0, _, _, w => w
  | n + 1, i, rc, w =>
    let prev := w.headD []
    let t := if i % 8 = 0 then
        let r := (prev.drop 1 ++ prev.take 1).map sbox
        (r.headD 0 ^^^ rc) :: r.drop 1
      else if i % 8 = 4 then prev.map sbox else prev
    let back := w.getD 7 []
    expand n (i + 1) (if i % 8 = 0 then xtime rc else rc) (List.zipWith (· ^^^ ·) back t :: w)

/-- The 15 round keys. -/
def roundKeys (key : List Nat) : List (List Nat) :=
  (blocks 4 (expand 52 8 1 (blocks 4 key).reverse).reverse).map List.flatten

/-- The bytes of a state moved by ShiftRows: byte i comes from place i + 4 × row's shift. -/
def shiftRows (s : List Nat) (k : Nat) : List Nat := (List.range 16).map fun i => s.getD ((i + 4 * k * (i % 4)) % 16) 0

/-- A column times the circulant matrix of a row. -/
def mixCol (m col : List Nat) : List Nat :=
  (List.range 4).map fun r => (List.range 4).foldl (fun a c => a ^^^ gmul (col.getD c 0) (m.getD ((c + 4 - r) % 4) 0)) 0

/-- MixColumns, or with the other row its inverse. -/
def mixColumns (m s : List Nat) : List Nat := (blocks 4 s).flatMap (mixCol m)

/-- AES-256 of one block under its round keys. -/
def aesEnc (rk : List (List Nat)) (b : List Nat) : List Nat :=
  let ark := fun s r => List.zipWith (· ^^^ ·) s (rk.getD r [])
  let s := (List.range 13).foldl (fun s r => ark (mixColumns [2, 3, 1, 1] (shiftRows (s.map sbox) 1)) (r + 1)) (ark b 0)
  ark (shiftRows (s.map sbox) 1) 14

/-- The inverse of AES-256 on one block. -/
def aesDec (rk : List (List Nat)) (b : List Nat) : List Nat :=
  let ark := fun s r => List.zipWith (· ^^^ ·) s (rk.getD r [])
  let s := (List.range 13).foldl (fun s r => mixColumns [14, 11, 13, 9] (ark ((shiftRows s 3).map invSbox) (13 - r))) (ark b 14)
  ark ((shiftRows s 3).map invSbox) 0

/-! ### GCM (NIST SP 800-38D) -/

/-- Multiplication in GF(2^128) as GCM writes it. -/
def ghashMul (x y : Nat) : Nat :=
  ((List.range 128).foldl (fun (a : Nat × Nat) i =>
    (if x >>> (127 - i) % 2 = 1 then a.1 ^^^ a.2 else a.1,
     if a.2 % 2 = 1 then a.2 / 2 ^^^ 0xE1000000000000000000000000000000 else a.2 / 2)) (0, y)).1

/-- A byte string with zeros to a whole number of blocks. -/
def pad16 (l : List Nat) : List Nat := l ++ List.replicate ((16 - l.length % 16) % 16) 0

/-- GHASH of a whole number of blocks. -/
def ghash (h : Nat) (l : List Nat) : Nat := (blocks 16 l).foldl (fun a b => ghashMul (a ^^^ num b) h) 0

/-- Counter mode from a 96-bit nonce and first counter. -/
def gctr (rk : List (List Nat)) (nonce : List Nat) (ctr : Nat) (l : List Nat) : List Nat :=
  (blocks 16 l).zipIdx.flatMap fun b => List.zipWith (· ^^^ ·) b.1 (aesEnc rk (nonce ++ be 4 ((ctr + b.2) % 2 ^ 32)))

/-- The 16-byte tag of additional data and cipher text. -/
def gcmTag (rk : List (List Nat)) (nonce aad ct : List Nat) : List Nat :=
  let h := num (aesEnc rk (List.replicate 16 0))
  gctr rk nonce 1 (be 16 (ghash h (pad16 aad ++ pad16 ct ++ be 8 (8 * aad.length) ++ be 8 (8 * ct.length))))

/-- AES-256-GCM: key, 12-byte nonce, additional data, plain text; cipher text then the 16-byte ICV. -/
@[irreducible] def gcmSeal (key nonce aad pt : List Byte) : List Byte :=
  let rk := roundKeys (nats key)
  let ct := gctr rk (nats nonce) 2 (nats pt)
  bytes (ct ++ gcmTag rk (nats nonce) (nats aad) ct)

/-- AES-256-GCM: key, nonce, additional data, cipher text, ICV; none where the check fails. -/
@[irreducible] def gcmOpen (key nonce aad ct icv : List Byte) : Option (List Byte) :=
  let rk := roundKeys (nats key)
  if bytes (gcmTag rk (nats nonce) (nats aad) (nats ct)) = icv then some (bytes (gctr rk (nats nonce) 2 (nats ct))) else none

/-! ### AES key wrap (RFC 3394) -/

/-- The initial value of key wrap. -/
def wrapIv : List Nat := List.replicate 8 0xA6

/-- Bytes against the 64-bit step number. -/
def wrapXor (a : List Nat) (t : Nat) : List Nat := List.zipWith (· ^^^ ·) a (be 8 t)

/-- AES key wrap of a whole number of 8-byte pieces, at least two. -/
@[irreducible] def aesWrap (key m : List Byte) : List Byte :=
  let rk := roundKeys (nats key)
  let r0 := blocks 8 (nats m)
  let n := r0.length
  let z := (List.range (6 * n)).foldl (fun (x : List Nat × List (List Nat)) t =>
    let b := aesEnc rk (x.1 ++ x.2.getD (t % n) [])
    (wrapXor (b.take 8) (t + 1), x.2.set (t % n) (b.drop 8))) (wrapIv, r0)
  bytes (z.1 ++ z.2.flatten)

/-- AES key unwrap; none where the length is not one that a wrap has, or the integrity check fails. -/
@[irreducible] def aesUnwrap (key m : List Byte) : Option (List Byte) :=
  let rk := roundKeys (nats key)
  let all := blocks 8 (nats m)
  let n := all.length - 1
  if m.length % 8 ≠ 0 ∨ n < 2 then none
  else
    let z := (List.range (6 * n)).foldl (fun (x : List Nat × List (List Nat)) j =>
      let t := 6 * n - 1 - j
      let b := aesDec rk (wrapXor x.1 (t + 1) ++ x.2.getD (t % n) [])
      (b.take 8, x.2.set (t % n) (b.drop 8))) (all.headD [], all.drop 1)
    if z.1 = wrapIv then some (bytes z.2.flatten) else none

/-! ### AES-CMAC (NIST SP 800-38B) and the key derivation of IEEE 802.1X -/

/-- Doubling in GF(2^128) as CMAC writes it. -/
def dbl (v : Nat) : Nat := if 2 ^ 127 ≤ v then (2 * v) % 2 ^ 128 ^^^ 0x87 else 2 * v

/-- AES-CMAC with a 256-bit key. -/
@[irreducible] def cmac (key m : List Byte) : List Byte :=
  let rk := roundKeys (nats key)
  let k1 := dbl (num (aesEnc rk (List.replicate 16 0)))
  let l := nats m
  let whole := l.length % 16 = 0 ∧ l ≠ []
  let keep := if whole then l.length - 16 else l.length / 16 * 16
  let tail := l.drop keep
  let last := if whole then num tail ^^^ k1
    else num (tail ++ 0x80 :: List.replicate (15 - tail.length) 0) ^^^ dbl k1
  let c := (blocks 16 (l.take keep)).foldl (fun a b => num (aesEnc rk (be 16 (a ^^^ num b)))) 0
  bytes (aesEnc rk (be 16 (c ^^^ last)))

/-- The KDF of IEEE 802.1X with AES-CMAC-256: key, label, context, and the length of the result in bytes. -/
def kdf (key : List Byte) (label : String) (context : List Byte) (n : Nat) : List Byte :=
  ((List.range ((n + 15) / 16)).flatMap fun i =>
    cmac key ([BitVec.ofNat 8 (i + 1)] ++ label.toUTF8.toList.map (fun c => BitVec.ofNat 8 c.toNat) ++ [0] ++ context ++
      bytes (be 2 (8 * n)))).take n

/-! ### Falcon-1024 verification (the Falcon specification) -/

/-- The modulus of Falcon. -/
def fq : Nat := 12289
/-- The bound on the squared norm for n = 1024. -/
def fBound : Nat := 70265242

/-- Sixteen-bit samples below 5 q, reduced: the point a salt and message hash to. -/
def hashToPoint (l : List Nat) : List Nat :=
  (((blocks 2 l).map num).filter (· < 61445)).map (· % fq) |>.take 1024

/-- Bytes as bits, most significant first. -/
def bitsOf (l : List Nat) : List Bool := l.flatMap fun b => (List.range 8).map fun i => b / 2 ^ (7 - i) % 2 = 1
/-- The number that bits spell, most significant first. -/
def bitNum (l : List Bool) : Nat := l.foldl (fun a b => 2 * a + (if b then 1 else 0)) 0

/-- The unary part of a coefficient: zeros up to a one, at most 15 of them. -/
def unary : Nat → Nat → List Bool → Option (Nat × List Bool)
  | 0, _, _ => none
  | _ + 1, _, [] => none
  | n + 1, k, b :: t => if b then some (k, t) else unary n (k + 1) t

/-- n compressed coefficients; none where one is malformed. What follows them is zeros. -/
def decompress : Nat → List Bool → Option (List Int)
  | 0, l => if l.any id then none else some []
  | n + 1, l =>
    if l.length < 9 then none
    else
      (unary 16 0 (l.drop 8)).bind fun u =>
        let m := bitNum ((l.drop 1).take 7) + 128 * u.1
        let neg := l.headD false
        if neg ∧ m = 0 then none
        else (decompress n u.2).map fun r => (if neg then -(m : Int) else (m : Int)) :: r

/-- The public polynomial: 1,024 coefficients of 14 bits, each below q. -/
def falconKey (pk : List Nat) : Option (List Nat) :=
  let h := (blocks 14 (bitsOf (pk.drop 1))).map bitNum
  if pk.headD 0 = 0x0A ∧ pk.length = 1793 ∧ h.all (· < fq) then some h else none

/-- Multiplication by x modulo x^1024 + 1 and q. -/
def mulX (h : List Nat) : List Nat := (fq - h.getLastD 0) % fq :: h.dropLast

/-- The product of a short polynomial and a polynomial, modulo x^1024 + 1 and q. -/
def mulPoly (a : List Int) (h : List Nat) : List Nat :=
  (a.foldl (fun (x : List Nat × List Nat) c =>
    let k := (c.emod fq).toNat
    (List.zipWith (fun s v => (s + k * v) % fq) x.1 x.2, mulX x.2)) (List.replicate h.length 0, h)).1

/-- A residue as the number nearest to zero. -/
def centred (v : Nat) : Int := if 2 * v ≤ fq then (v : Int) else (v : Int) - fq

/-- The squared norm of a list of numbers. -/
def norm2 (l : List Int) : Nat := l.foldl (fun a x => a + x.natAbs * x.natAbs) 0

/-- Falcon-1024 verification: public key, signature in compressed form, message. -/
@[irreducible] def falconVerify (pk sig m : List Byte) : Bool :=
  let s := nats sig
  match falconKey (nats pk), decompress 1024 (bitsOf (s.drop 41)) with
  | some h, some s2 =>
    let c := hashToPoint (sponge 0x1F ((s.drop 1).take 40 ++ nats m) 4096)
    let s1 := List.zipWith (fun x y => centred ((x + fq - y) % fq)) c (mulPoly s2 h)
    s.headD 0 == 0x3A && c.length == 1024 && decide (norm2 s1 + norm2 s2 ≤ fBound)
  | _, _ => false

end Sys2Proof.Std
end

