-- ==== Sys2Proof/Machine/Ops.lean ====
section
/-! DEFINITION. The named operations every meaning is built from: register and field access, saturating counts, outside
effects, free values, raising an event across its crossing, refusing a write, counting a drop, and bytes. -/
namespace Sys2Proof.Machine

/-! ### Registers -/

/-- The value of register copy (i, j, k): its reset value where nothing else was stored (R6). -/
def State.rd (s : State) (r : Reg) (i j k : Nat) : W64 :=
  mgetD s.regs (r.addr i j k) r.resetValue

/-- Store a register copy's value; the reset value is stored by dropping the entry. -/
def State.wr (s : State) (r : Reg) (i j k : Nat) (v : W64) : State :=
  { s with regs := msetD s.regs (r.addr i j k) r.resetValue v }

/-- The number in a field of register copy (i, j, k). -/
def State.f (s : State) (x : Fld) (i : Nat := 0) (j : Nat := 0) (k : Nat := 0) : Nat :=
  x.of (s.rd x.r i j k)

/-- Is a one-bit field set? -/
def State.fb (s : State) (x : Fld) (i : Nat := 0) (j : Nat := 0) (k : Nat := 0) : Bool :=
  s.f x i j k != 0

/-- Put a number into a field of register copy (i, j, k). -/
def State.setF (s : State) (x : Fld) (v : Nat) (i : Nat := 0) (j : Nat := 0) (k : Nat := 0) : State :=
  s.wr x.r i j k (x.put (s.rd x.r i j k) v)

/-- The largest number a field holds. -/
def Fld.max (x : Fld) : Nat := 2 ^ (x.hi + 1 - x.lo) - 1

/-- Add to a count that saturates at the largest number of its field. -/
def State.sat (s : State) (x : Fld) (n : Nat) (i : Nat := 0) (j : Nat := 0) (k : Nat := 0) : State :=
  s.setF x (Nat.min x.max (s.f x i j k + n)) i j k

/-- A field of one of the 128 device ports' registers, which are laid out by slice and local port. -/
def State.pf (s : State) (x : Fld) (p : Nat) : Nat := s.f x (p / 16) (p % 16)

/-- Is a one-bit field of a device port's register set? -/
def State.pfb (s : State) (x : Fld) (p : Nat) : Bool := s.pf x p != 0

/-- Put a number into a field of a device port's register. -/
def State.setPf (s : State) (x : Fld) (v p : Nat) : State := s.setF x v (p / 16) (p % 16)

/-- Add to a saturating count of a device port's register. -/
def State.satP (s : State) (x : Fld) (n p : Nat) : State := s.sat x n (p / 16) (p % 16)

/-- A flag as a number. -/
def b2n (b : Bool) : Nat := if b then 1 else 0

/-- Bit n of a number. -/
def bit (v n : Nat) : Bool := v / 2 ^ n % 2 == 1

/-- Bits hi to lo of a number. -/
def bits (v hi lo : Nat) : Nat := v / 2 ^ lo % 2 ^ (hi + 1 - lo)

/-- A number with bit n set or cleared. -/
def putBit (v n : Nat) (b : Bool) : Nat :=
  if bit v n then (if b then v else v - 2 ^ n) else (if b then v + 2 ^ n else v)

/-! ### Bytes -/

/-- The number that bytes spell, most significant first. -/
def beNat (l : List Byte) : Nat := l.foldl (fun a b => a * 256 + b.toNat) 0

/-- n bytes of a number, most significant first. -/
def beBytes : Nat → Nat → List Byte
  | 0, _ => []
  | n + 1, v => beBytes n (v / 256) ++ [BitVec.ofNat 8 (v % 256)]

/-- n bytes of a number, least significant first (host-memory structures, R358). -/
def leBytes : Nat → Nat → List Byte
  | 0, _ => []
  | n + 1, v => BitVec.ofNat 8 (v % 256) :: leBytes n (v / 256)

/-- The number that bytes spell, least significant first. -/
def leNat : List Byte → Nat
  | [] => 0
  | b :: t => b.toNat + 256 * leNat t

/-- The 64-bit words of a list as bytes of host memory. -/
def wordsLE (l : List W64) : List Byte := l.flatMap fun w => leBytes 8 w.toNat

/-- Bytes off to off + n - 1 of a list. -/
def slice (l : List Byte) (off n : Nat) : List Byte := (l.drop off).take n

/-- A list with n bytes at off replaced. -/
def splice (l : List Byte) (off : Nat) (b : List Byte) : List Byte :=
  l.take off ++ b ++ l.drop (off + b.length)

/-- The 32-bit words, most significant byte first, of a 32-byte value in HST_SESS_DATA's order. -/
def toW32s : List Byte → List W32
  | a :: b :: c :: d :: t => BitVec.ofNat 32 (beNat [a, b, c, d]) :: toW32s t
  | _ => []

/-- The bytes of HST_SESS_DATA words. -/
def ofW32s (l : List W32) : List Byte := l.flatMap fun w => beBytes 4 w.toNat

/-! ### Outside effects and free values -/

/-- The state with the outside effects of an earlier command forgotten: every meaning starts here. -/
def State.begin (s : State) : State := { s with out := [] }

/-- Add one outside effect. -/
def State.emit (s : State) (o : Out) : State := { s with out := s.out ++ [o] }

/-- A fresh free value (log entry 2). -/
def State.fresh (s : State) : W64 × State := (Config.freeWord s.free, { s with free := s.free + 1 })

/-! ### Resets in force -/

/-- The CORE group is out of reset. -/
def State.core (s : State) : Bool := s.grp.coreUp

/-- The MGMT group is out of reset. -/
def State.mgmt (s : State) : Bool := s.grp.mgmtUp

/-- The CORE group is out of reset and the device is not in P4. -/
def State.coreLive (s : State) : Bool := s.core && s.f F.PWR_STATUS_DEVICE != 4

/-- The CORE group's clocks run: it is out of reset and the device is neither in P3, which stops every slice, the common
clocks, tclk and mclk, nor in P4 (Table 2-3, Table 16-4, R397). -/
def State.coreRuns (s : State) : Bool := s.coreLive && s.f F.PWR_STATUS_DEVICE != 3

/-- The effect of a command on CORE logic: none while the group is held in reset or its clocks stop (log entry 4). -/
def State.onCore (s : State) (f : State → State) : Ans := .next (if s.coreRuns then f s.begin else s.begin)

/-- The effect of a command on MGMT logic: none while the group is held in reset (log entry 4). -/
def State.onMgmt (s : State) (f : State → State) : Ans := .next (if s.mgmt then f s.begin else s.begin)

/-- The operating mode of Table 1-6. -/
def State.mode (s : State) : Nat := s.boot.mode
/-- Standalone mode. -/
def State.standalone (s : State) : Bool := s.boot.mode == 0
/-- Doublet mode. -/
def State.doublet (s : State) : Bool := s.boot.mode == 2

/-! ### Events -/

/-- The sources Table 16-1 marks reserved, which never raise. -/
def reservedSource (n : Nat) : Bool :=
  (16 ≤ n && n < 32) || (40 ≤ n && n < 64) || (108 ≤ n && n < 128) || (263 ≤ n && n < 288) || (294 ≤ n && n < 320) ||
  (324 ≤ n && n < 352) || (370 ≤ n && n < 384) || (459 ≤ n && n < 480) || (485 ≤ n && n < 512) || 1024 ≤ n

/-- The sources whose block lies in the CORE group, so that their crossing resets with it (R40). -/
def coreSource (n : Nat) : Bool :=
  n == 8 || (35 ≤ n && n ≤ 39) || n == 106 || n == 107 || (128 ≤ n && n < 512)

/-- Raise source n with its DATA: a new request crosses to the event controller, or, while an earlier one is
unacknowledged, the pending bit of the crossing sets (R35, R380). -/
def State.raiseD (s : State) (n : Nat) (data : W64) : State :=
  if reservedSource n then s
  else
    let e := s.f F.TIM_STATUS_RESET_EPOCH
    let x : Xing :=
      match mget s.evt.xing n with
      | none => { epoch := e, pica := s.pica.num, data := data }
      | some x => { x with again := some (e, s.pica.num, data) }
    { s with evt := { s.evt with xing := mset s.evt.xing n x } }

/-- Raise a source whose DATA is zero. -/
def State.raise (s : State) (n : Nat) : State := s.raiseD n 0

/-- Refuse a write: the block's CFG_ERR sets, and its first setting since the bit was cleared raises the block's
event. -/
def State.cfgErr (s : State) (x : Fld) (src : Nat) (i : Nat := 0) (j : Nat := 0) : State :=
  if s.fb x i j then s else (s.setF x 1 i j).raise src

/-! ### Statistics and drops -/

/-- Record spaces of Table 16-3, in CNT_ERR_LOG's numbering. -/
def spFlow : Nat := 0
def spQueue : Nat := 1
def spSa : Nat := 2
def spPolicer : Nat := 3
def spPort : Nat := 4
def spReason : Nat := 5

/-- The key of a statistics record: its space and its index. -/
def statKey (space idx : Nat) : Nat := space * 2 ^ 24 + idx

/-- Post an update of a record's counted fields to the statistics unit, stamped with the current pica (R387). -/
def State.post (s : State) (space idx : Nat) (add : List Nat) : State :=
  { s with cnt := { s.cnt with posts := s.cnt.posts ++ [⟨statKey space idx, add, s.pica.num⟩] } }

/-- Updates that wait in the queue of a record's bank, which the low 4 bits of the index name (R387). -/
def State.bankQueued (s : State) (key : Nat) : Nat := (s.cnt.posts.filter fun p => p.key % 16 == key % 16).length

/-- Updates that the queue of a bank holds (R387). -/
def bankRoom : Nat := 1024

/-- Count a frame or copy of `len` stored bytes that leaves the path under a reason code (R16, R385): the reason record,
CNT_DROP_TOTAL, and the drop fields of port p's receive half (side 0) or transmit half (side 1); p = 128 stands for a frame
that entered another device. -/
def State.drop (s : State) (code len p : Nat) (side : Nat := 0) : State :=
  let s1 := s.post spReason code [1, len + 4]
  let s2 := s1.wr .CNT_DROP_TOTAL 0 0 0 (s1.rd .CNT_DROP_TOTAL 0 0 0 + 1)
  if p < 128 then s2.post spPort (2 * p + side) [0, 0, 1, len + 4] else s2

/-- HBM bytes at LA hold a poisoned 32-byte burst (R234). -/
def State.poisoned (s : State) (la n : Nat) : Bool :=
  s.hbm.poison.any fun b => decide (la / 32 ≤ b) && decide (b * 32 < la + n)

/-- A requester's write clears the poison of the bursts it writes (R234). -/
def State.unpoison (s : State) (la n : Nat) : State :=
  if s.hbm.poison.isEmpty then s
  else { s with hbm := { s.hbm with poison := s.hbm.poison.filter fun b => !(decide (la / 32 ≤ b) && decide (b * 32 < la + n)) } }

/-- LA of SA i (R85). -/
def saLA (i : Nat) : Nat := 0xA0000000 + i * 256

/-- The location code of R12. -/
def location (level die slice cluster tile macr cell : Nat) : W64 :=
  BitVec.ofNat 64 (level * 2 ^ 61 + die * 2 ^ 58 + slice * 2 ^ 54 + cluster * 2 ^ 48 + tile * 2 ^ 40
    + macr * 2 ^ 28 + cell)

/-- All-ones MACRO and CELL fields: the reported level is coarser. -/
def naMacro : Nat := 0xFFF
def naCell : Nat := 0xFFFFFFF

/-! ### Fault conditions and fatal faults (R298, R301, R302) -/

/-- Set or clear condition n of RED_FAULT. -/
def State.cond (s : State) (n : Nat) (b : Bool) : State :=
  s.setF F.RED_FAULT_COND (putBit (s.f F.RED_FAULT_COND) n b)

/-- A permanent fault that is neither a channel's nor fatal: the HW_FAULT condition and event RED_HW_FAULT (R298). -/
def State.hwFault (s : State) : State := ({ s with red := { s.red with hw := true } }.cond 3 true).raise 96

/-- Group g's slices of FD and QD have their clocks stopped: P2 or deeper (Table 16-4). -/
def State.gated (s : State) (g : Nat) : Bool := decide (2 ≤ s.f F.PWR_GRP_STATUS_STATE g)


/-- A fatal fault is held: its hold of the CORE group is in force. -/
def State.fatalHeld (s : State) : Bool := s.grp.holds.contains .fatal

/-- The level of ARB_FAULT (R319). -/
def State.arbFault (s : State) : Bool :=
  !s.core || s.fatalHeld || s.fb F.RED_CTRL_YIELD ||
  (s.f F.RED_FAULT_COND &&& s.f F.RED_FAULT_MASK) != 0

/-- The MGT core reset request with a reason to hold: the flush of R392 starts, unless the group is in reset. -/
def State.requestCore (s : State) (h : Option Hold) : State :=
  let holds := match h with
    | none => s.grp.holds
    | some x => if s.grp.holds.contains x then s.grp.holds else s.grp.holds ++ [x]
  { s with grp := { s.grp with holds := holds, flush := s.grp.flush || s.core } }

/-! The codes of RED_FATAL. -/

def codeTplFQ : Nat := 1
def codeTplQF : Nat := 2
def codeMarkQD : Nat := 3
def codeMarkTD : Nat := 4

end Sys2Proof.Machine
end

