-- ==== Sys2Proof/Machine/Reset.lean ====
section
/-! DEFINITION. Resets of the four groups (R6, R40, R41, R350) and fatal faults (R302): what each clears and keeps. -/
namespace Sys2Proof.Machine

/-- BAR0 offsets of FD, QD and TD registers, which reset with the CORE group. -/
def coreAddr (a : Nat) : Bool := a < 0x3000000

/-- Every register of the group back at its reset value, but for the fields the spec keeps (R6): here the kept register
copies are put back with their kept bits alone. -/
def State.resetRegs (s : State) (p : Nat → Bool) (kept : List (Reg × Nat)) : State :=
  kept.foldl (fun t ri =>
      let m := ri.1.info.keep
      let old := (s.rd ri.1 ri.2 0 0).toNat
      let base := ri.1.info.reset
      t.wr ri.1 ri.2 0 0 (BitVec.ofNat 64 ((base - (base &&& m)) + (old &&& m))))
    { s with regs := s.regs.filter fun e => !p e.1 }

/-- The kept fields of the CORE group: SPARE, PTR and migration of each stack (R245), and retirements (R300). -/
def coreKept : List (Reg × Nat) :=
  [(.HBM_STACK_CFG, 0), (.HBM_STACK_CFG, 1), (.HBM_STACK_CFG, 2), (.HBM_STACK_CFG, 3),
   (.HBM_STACK_MIG, 0), (.HBM_STACK_MIG, 1), (.HBM_STACK_MIG, 2), (.HBM_STACK_MIG, 3),
   (.HBM_STACK_STATUS, 0), (.HBM_STACK_STATUS, 1), (.HBM_STACK_STATUS, 2), (.HBM_STACK_STATUS, 3),
   (.HBM_PCH_STATE, 0), (.HBM_PCH_STATE, 1), (.HBM_PCH_STATE, 2), (.HBM_PCH_STATE, 3), (.HBM_STATUS, 0),
   (.TPL_STATUS, 0), (.TRN_PORT_STATUS, 0), (.PPE_SLICE_RETIRED, 0), (.PPE_SLICE_RETIRED, 1), (.PPE_SLICE_RETIRED, 2),
   (.PPE_SLICE_RETIRED, 3), (.PPE_SLICE_RETIRED, 4), (.PPE_SLICE_RETIRED, 5), (.PPE_SLICE_RETIRED, 6),
   (.PPE_SLICE_RETIRED, 7)]

/-- HBM_PCH_STATE with no pseudo-channel powered down (code 0b01): only retirement and the spare are kept (R238, R244). -/
def pchAwake (w : Nat) : Nat :=
  (List.range 32).foldl (fun a p => if w / 4 ^ p % 4 = 1 then a - 4 ^ p else a) w

/-- Every pseudo-channel that was powered down is active. -/
def State.wakePchs (s : State) : State :=
  (List.range 4).foldl (fun t k => t.setF F.HBM_PCH_STATE_STATE (pchAwake (t.f F.HBM_PCH_STATE_STATE k)) k) s

/-- The kept fields of the MGMT group: RESET_EPOCH (R41), the fatal fault count, and HELD, since only a host core reset
request or a PKG reset ends what it shows (R302). -/
def mgmtKept : List (Reg × Nat) := [(.TIM_STATUS, 0), (.RED_FATAL, 0)]

/-- A session closes: its state, nonces and data clear (R357). FAILS stays until a successful open (R356). -/
def Session.close (x : Session) : Session :=
  if x.state == 4 then x else { state := 0, fails := x.fails, lockS := 0 }

/-- Clear bit 31 (EN) of every listed register copy. -/
def State.clearEn (s : State) (x : Fld) (n : Nat) : State :=
  (List.range n).foldl (fun t i => if t.fb x i then t.setF x 0 i else t) s

/-- The DMA channel's ADMIN bit clears when the PCIe administrator session closes (R372). -/
def State.clearAdmin (s : State) : State :=
  (List.range 16).foldl (fun t i => if t.fb F.DMA_CH_CFG_ADMIN i then t.setF F.DMA_CH_CFG_ADMIN 0 i else t) s

/-- The PCIe session closes. -/
def State.closePcie (s : State) : State :=
  ({ s with hst := { s.hst with pcie := s.hst.pcie.close } }).clearAdmin

/-- The SMBus session closes. -/
def State.closeSmbus (s : State) : State := { s with hst := { s.hst with smbus := s.hst.smbus.close } }

/-- The descriptor in progress on a channel ends marked bad, and CI passes it (R374). -/
def State.dmaBad (s : State) (k : Nat) : State :=
  let idx := s.f F.DMA_CH_CI_INDEX k
  (((s.sat F.DMA_CH_STATUS_BAD 1 k).setF F.DMA_CH_STATUS_BUSY 0 k).setF F.DMA_CH_CI_INDEX ((idx + 1) % 2 ^ 32) k).raiseD
    (64 + k) (BitVec.ofNat 64 idx)

/-- Write STATUS of the descriptor at an index of a channel's ring: byte 7 of its first word. -/
def State.descStatus (s : State) (k idx st : Nat) : State :=
  s.emit (.hostWrite (s.f F.DMA_CH_RING_ADDR k * 4096 + idx % 2 ^ s.f F.DMA_CH_CFG_SIZE k * 32 + 7) [BitVec.ofNat 8 st])

/-- Every DMA channel is disabled; a transfer in progress ends as R374 states (Table 15-14), its STATUS written where the link
to host memory stands. -/
def State.disableDma (s : State) (link : Bool) : State :=
  (List.range 16).foldl (fun t k =>
    let t1 := if t.fb F.DMA_CH_STATUS_BUSY k then
        (if link then t.descStatus k (t.f F.DMA_CH_CI_INDEX k) 0x02 else t).dmaBad k
      else t
    if t1.fb F.DMA_CH_CFG_EN k then t1.setF F.DMA_CH_CFG_EN 0 k else t1) s

/-- A work queue beside its registers. -/
def State.wqOf (s : State) (q : Nat) : WorkQueue := mgetD s.hst.wq q {}
/-- Store a work queue. -/
def State.setWq (s : State) (q : Nat) (x : WorkQueue) : State :=
  { s with hst := { s.hst with wq := msetD s.hst.wq q {} x } }

/-- Once no entry executes, a queue whose EN has cleared discards its cache and clears ENABLED (R362). -/
def State.settleDisable (s : State) (q : Nat) : State :=
  if s.fb F.HST_WQ_STATUS_ENABLED q && !s.fb F.HST_WQ_CFG_EN q && (s.wqOf q).exec.isNone then
    ((s.setWq q {}).setF F.HST_WQ_STATUS_ENABLED 0 q).setF F.HST_WQ_STATUS_WAIT_CQ 0 q
  else s

/-- Every queue, ring and DMA channel is disabled. An entry in execution runs on to its end, and its queue is disabled after
it (R357, R362). -/
def State.stopHostWork (s : State) (link : Bool) : State :=
  let s1 := (((s.clearEn F.HST_WQ_CFG_EN 64).clearEn F.HST_CQ_CFG_EN 64).clearEn F.HST_PUNT_CFG_EN 16).clearEn
    F.HST_INJ_CFG_EN 16
  ((List.range 64).foldl (fun t q => t.settleDisable q) s1).disableDma link

/-- What a function level reset and a HOST reset both do (R350): the work the host ordered ends, the PCIe session closes, and
the MSI-X state of the endpoint resets. -/
def State.hostEffects (s : State) (link : Bool := false) : State :=
  let s3 := (s.stopHostWork link).closePcie
  { s3 with evt := { s3.evt with msix := [], msixEn := false, msixMask := false } }

/-- The commands that wait their turn at a block end with the work queues they come from. -/
def State.dropCommands (s : State) : State :=
  { s with exm := { s.exm with fifo := mmap (fun _ (l : List XOp) => l.filter fun o => !o.isCommand) s.exm.fifo }
           trn := { s.trn with fifo := s.trn.fifo.filter fun o => match o with | .run _ => true | _ => false } }

/-- A reset of the CORE group (R41): registers, frames, cells, searches and descriptors inside the group, and the
crossings the group owns. Retirements, the management region, the multicast members and the statistics records stay (R300,
R245, R386). A latched high word and a held low word of a register stay too: the spec gives their reset for none of the two
groups (DESIGN CHOICE, log entry 9). -/
def State.clearCore (s : State) : State :=
  let s1 := (s.resetRegs coreAddr coreKept).wakePchs
  { s1 with
    pica := {}
    evt := { s1.evt with xing := mfilter (fun n _ => !coreSource n) s1.evt.xing }
    cnt := { recs := s1.cnt.recs, inside := s1.cnt.inside }
    lne := {}
    cry := {}
    prs := {}
    exm := {}
    trn := { tested := s1.trn.tested }
    ppe := {}
    buf := {}
    hbm := { s1.hbm with ue := [], cmd := [], scrub := 0, arb := none, used := [], unmet := [], kept := [], reads := [] }
    que := { members := s1.que.members }
    fab := {}
    cb := []
    twin := {} }

/-- SYNCED and the condition UNSYNCED, which holds in Doublet mode while SYNCED is clear (RED_FAULT). -/
def State.setSynced (s : State) (b : Bool) : State := (s.setF F.RED_STATUS_SYNCED (b2n b)).cond 5 (s.doublet && !b)

/-- The twin link goes down (R310, R312): the event, the condition, and an end of every snapshot. -/
def State.twinDrop (s : State) : State :=
  if s.fb F.RED_STATUS_TWIN_UP then
    let s1 := ((s.setF F.RED_STATUS_TWIN_UP 0).setF F.RED_STATUS_PEER_VER 0).setF F.RED_STATUS_SYNCING 0
    let s2 := (s1.raise 99).cond 6 true
    { s2 with twin := { s2.twin with peer := none, queue := [], part := none, unacked := [], toSend := [], snap := false, resync := false } }
  else s

/-- The CORE group enters reset: its twin-link lanes reset with it, and SYNCED clears (R310, R312). -/
def State.enterCore (s : State) : State :=
  let s0 := ((s.twinDrop.setSynced false).setF F.RED_TWIN_STATUS_LIVE 0).setF F.RED_TWIN_STATUS_FAR_RETIRED 0
  let s1 := s0.clearCore
  { s1 with grp := { s1.grp with coreUp := false, flush := false } }

/-- The conditions of RED_FAULT that retirements and permanent faults hold up to the next PKG reset: TPL_DEGRADED,
HBM_NO_SPARE, TD_SLICE_LOST and HW_FAULT (R298, R300). -/
def State.lastingConds (s : State) : Nat := s.f F.RED_FAULT_COND % 8 + 8 * b2n s.red.hw

/-- A reset of the MGMT group: its registers, the event controller, the time base, sessions, queues and an open update. The
boot ROM starts again with the CORE group held (R40, R336, R357). The endpoint's MSI-X table, its enable and its function mask
lie in the HOST group and stay (Table 2-7), and so do the conditions that last until a PKG reset and the level of ARB_HEALTH,
which it holds while it does not toggle (R319). -/
def State.clearMgmt (s : State) : State :=
  let s1 := s.dropCommands
  let s2 := (s1.resetRegs (fun a => !coreAddr a) mgmtKept).setF F.RED_FAULT_COND (s1.lastingConds)
  { s2 with
    bus := {}
    tb := {}
    evt := { msix := s2.evt.msix, msixEn := s2.evt.msixEn, msixMask := s2.evt.msixMask }
    boot := { flash := s2.boot.flash, fuses := s2.boot.fuses, keyring := s2.boot.keyring, fuseOwed := s2.boot.fuseOwed }
    hst := {}
    mka := {}
    red := { hw := s2.red.hw, health := s2.red.health }
    pwr := {} }

/-- A reset of the whole package: everything but the flash, the keyring in it, the fuses, and the commands that wait. -/
def State.clearPkg (s : State) : State :=
  { State.reset with
    boot := { flash := s.boot.flash, fuses := s.boot.fuses, keyring := s.boot.keyring, fuseOwed := s.boot.fuseOwed }
    free := s.free
    out := s.out
    pending := s.pending }

/-- The CAKs the management cores read from the keyring at a release of the MGMT group (R99), by port: each unwrapped under
the device wrap key. -/
def Keyring.portCaks (k : Keyring) (wrap : List Byte) : SMap (List Byte × List Byte) :=
  k.caks.foldl (fun m (c : Cak) => match Std.aesUnwrap wrap c.wrapped with
    | some key => mset m c.port (c.ckn, key)
    | none => m) []

/-- The boot ROM starts with the CORE group held, which ends step 1 of Table 14-6: identification from the fuses; link
training that waited for that end starts (R410). -/
def State.startRom (s : State) : State :=
  let s1 := (s.setF F.HST_ID_ORDER s.boot.fuses.order).wr .HST_SERIAL 0 0 0 s.boot.fuses.serial
  let s2 := s1.setF F.MGT_SECURITY_FUSED_SVN s.boot.fuses.svn
  let keys := (List.range 4).foldl (fun a k => if (mget s.boot.fuses.slots k).isSome then a + 2 ^ k else a) 0
  let rev := (List.range 4).foldl (fun a k => if s.boot.fuses.revoked.contains k then a + 2 ^ k else a) 0
  let s2 := { s2 with mka := { caks := s2.boot.keyring.portCaks s2.boot.fuses.wrapKey } }
  let s3 := (s2.setF F.MGT_SECURITY_KEYS_PROG keys).setF F.MGT_SECURITY_KEYS_REVOKED rev
  { s3.setF F.MGT_STATUS_STAGE 1 with grp := { s3.grp with mgmtUp := true, coreUp := false, flush := false,
                                                           flushMgmt := false, holds := [.boot]
                                                           training := s3.grp.hostUp && !s3.grp.linkUp } }

/-- The boot ROM starts again after an MGMT reset: a CORE group held after a fatal fault stays held (R302). -/
def State.restartRom (s : State) : State :=
  let t := s.startRom
  if s.fatalHeld && s.fb F.RED_FATAL_HELD then { t with grp := { t.grp with holds := [.boot, .fatal] } } else t

/-- The PKG reset that a watchdog fall-back takes (R343, R346): the package resets and its boot ROM starts. -/
def State.fallbackReset (s : State) : State :=
  let s1 := s.clearPkg
  ({ s1 with grp := { porstLow := false, sysRstLow := s.grp.sysRstLow, perstLow := s.grp.perstLow,
                      hostUp := !s.grp.perstLow, refLost := s.grp.refLost, jtag := s.grp.jtag, trst := s.grp.trst
                      testMode := s.grp.testMode } }).startRom

/-- A fatal fault (R302): its code and count are recorded, RED_FATAL is raised and mcore0 holds the CORE group; in Proof
the watchdog expires at once (R346). With AUTO_RESTART clear nothing but a host request releases the group, so HELD
shows it (log entry 11). -/
def State.fatal (s : State) (code : Nat) : State :=
  if s.fatalHeld then s
  else
    let s0 := { s with red := { s.red with fatals := (s.red.fatals ++ [s.tb.up]).filter fun t => decide (s.tb.up < t + 600) } }
    let s1 := ((s0.setF F.RED_FATAL_CODE code).sat F.RED_FATAL_COUNT 1).raise 97
    if s1.fb F.MGT_STATUS_PROOF then s1.fallbackReset
    else
      let s2 := if s1.fb F.RED_CTRL_AUTO_RESTART then s1 else s1.setF F.RED_FATAL_HELD 1
      s2.requestCore (some .fatal)

end Sys2Proof.Machine
end

