-- ==== Sys2Proof/Machine/Evt.lean ====
section
/-! DEFINITION. Events, the event log and MSI-X messages (R380 to R383). -/
namespace Sys2Proof.Machine

/-- The MSI-X table entry of a vector. -/
def State.msixEntry (s : State) (v : Nat) : MsixEntry := mgetD s.evt.msix v {}

/-- Replace the MSI-X table entry of a vector. -/
def State.setMsix (s : State) (v : Nat) (e : MsixEntry) : State :=
  { s with evt := { s.evt with msix := msetD s.evt.msix v {} e } }

/-- Neither the function nor the table masks a vector. -/
def State.msixOpen (s : State) (v : Nat) : Bool := s.evt.msixEn && !s.evt.msixMask && !(s.msixEntry v).masked

/-- A message leaves on a vector and begins its holdoff of HOLDOFF_US, when that is not zero; on a masked vector the pending
bit records the trigger instead. While the HOST end of the crossing is in reset, what it holds for that end is discarded
(R40). -/
def State.sendMsix (s : State) (v : Nat) : State :=
  let e := s.msixEntry v
  if !s.grp.hostUp then s
  else if s.msixOpen v then
    let s1 := s.emit (.msix v e.addr e.data)
    if s.f F.EVT_VEC_CFG_HOLDOFF_US v = 0 then s1
    else { s1 with evt := { s1.evt with holdoff := mset s1.evt.holdoff v false } }
  else s.setMsix v { e with pend := true }

/-- A trigger of a vector (R382): in holdoff it collapses into one message at the end; otherwise the message leaves. -/
def State.trigger (s : State) (v : Nat) : State :=
  match mget s.evt.holdoff v with
  | some _ => { s with evt := { s.evt with holdoff := mset s.evt.holdoff v true } }
  | none => s.sendMsix v

/-- Meaning of HOLDOFF_EXPIRY: triggers collapsed in the holdoff send one message, which begins a new holdoff. -/
def execHoldoffExpiry (vector : BitVec 6) (s : State) : Ans :=
  s.onMgmt fun s =>
    match mget s.evt.holdoff vector.toNat with
    | none => s
    | some t =>
      let s1 := { s with evt := { s.evt with holdoff := merase s.evt.holdoff vector.toNat } }
      if t then s1.trigger vector.toNat else s1

/-- Pending vectors whose mask has gone send their message, one in holdoff at the holdoff's end. -/
def State.sendUnmasked (s : State) (vs : List Nat) : State :=
  vs.foldl (fun t v =>
    let e := t.msixEntry v
    if e.pend && t.msixOpen v then (t.setMsix v { e with pend := false }).trigger v else t) s

/-- The pending bit of a source. -/
def State.pendBit (s : State) (n : Nat) : Bool := bit (s.f F.EVT_GRP_PEND_PEND (n / 32)) (n % 32)

/-- Set the pending bit of a source. -/
def State.setPend (s : State) (n : Nat) : State :=
  s.setF F.EVT_GRP_PEND_PEND (putBit (s.f F.EVT_GRP_PEND_PEND (n / 32)) (n % 32) true) (n / 32)

/-- One log record for a raise whose source has LOG set while LOG_EN is set; a full log discards it, sets LOG_OVF and
raises EVT_LOG_OVF, which writes no record itself (R383). -/
def State.logRaise (s : State) (n : Nat) (x : Xing) : State :=
  if s.fb F.EVT_CTRL_LOG_EN && s.fb F.EVT_SRC_CFG_LOG n && n != 15 then
    if 1024 ≤ s.evt.log.length then (s.setF F.EVT_STATUS_LOG_OVF 1).raise 15
    else { s with evt := { s.evt with log := s.evt.log ++ [⟨n, x.epoch, x.pica, x.data⟩] } }
  else s

/-- The event controller receives a raise: pending bit, log, and a message when the bit changes from 0 to 1 while EN is
set (R380, R382). -/
def State.deliver (s : State) (n : Nat) (x : Xing) : State :=
  let was := s.pendBit n
  let s1 := (s.setPend n).logRaise n x
  if !was && s1.fb F.EVT_SRC_CFG_EN n then s1.trigger (s1.f F.EVT_SRC_CFG_VECTOR n) else s1

/-- The acknowledge returns: a set pending bit starts one new request and clears (R35). -/
def State.acknowledge (s : State) (n : Nat) (x : Xing) : State :=
  let m := match x.again with
    | none => merase s.evt.xing n
    | some (e, p, d) => mset s.evt.xing n { epoch := e, pica := p, data := d }
  { s with evt := { s.evt with xing := m } }

/-- Meaning of EVENT_RAISE: the crossing of a source delivers its event. With none in flight, a software source is raised
by the resident services, which run beside the controller (R381), and any other source has nothing to deliver. -/
def execEventRaise (source : BitVec 11) (s : State) : Ans :=
  s.onMgmt fun s =>
    let n := source.toNat
    match mget s.evt.xing n with
    | some x => (s.acknowledge n x).deliver n x
    | none =>
      if 512 ≤ n ∧ n < 1024 then
        s.deliver n { epoch := s.f F.TIM_STATUS_RESET_EPOCH, pica := s.pica.num, data := 0 }
      else s

/-- The effect of a write of EVT_SRC_CFG beyond its fields: EN changing from 0 to 1 while the source is pending sends
its message (R382). -/
def State.srcCfgHook (s : State) (n : Nat) (oldEn : Bool) : State :=
  if !oldEn && s.fb F.EVT_SRC_CFG_EN n && s.pendBit n then s.trigger (s.f F.EVT_SRC_CFG_VECTOR n) else s

/-- The effect of a write of EVT_SW_SET: GO raises a software source; another number is refused, with GO or without (R381,
R401). -/
def State.swSet (s : State) (v : W64) : State :=
  let n := F.EVT_SW_SET_SOURCE.of v
  if n < 512 ∨ 1023 < n then s.cfgErr F.EVT_STATUS_CFG_ERR 14
  else if F.EVT_SW_SET_GO.of v = 1 then s.raise n
  else s

/-- The six words of a log record as EVT_LOG_REC shows it. -/
def logWords (r : LogRec) : List Nat :=
  [2 ^ 31 + r.source, r.epoch * 2 ^ 16, r.pica % 2 ^ 32, r.pica / 2 ^ 32 % 2 ^ 32, r.data.toNat % 2 ^ 32,
   r.data.toNat / 2 ^ 32]

/-- A read of EVT_LOG_REC's first word: the oldest record is removed and latched; without one, zeros latch (R383). -/
def State.logRead (s : State) : W32 × State :=
  match s.evt.log with
  | [] => (0, (List.range 5).foldl (fun t k => t.wr .EVT_LOG_REC 0 0 0 0 |>.wr .EVT_LOG_REC (k + 1) 0 0 0) s)
  | r :: rest =>
    let s1 := { s with evt := { s.evt with log := rest } }
    let w := logWords r
    (BitVec.ofNat 32 (w.getD 0 0),
     (List.range 5).foldl (fun t k => t.wr .EVT_LOG_REC (k + 1) 0 0 (BitVec.ofNat 64 (w.getD (k + 1) 0))) s1)

/-- EVT_SUMMARY: the groups with a pending source whose EN is set. -/
def State.evtSummary (s : State) : Nat :=
  (List.range 36).foldl (fun a g =>
    if (List.range 32).any fun b => s.pendBit (32 * g + b) && s.fb F.EVT_SRC_CFG_EN (32 * g + b) then a + 2 ^ g else a) 0

end Sys2Proof.Machine
end

