-- ==== Sys2Proof/Machine/Mem.lean ====
section
/-! DEFINITION. What every requester of the stacked memory shares (chapter 10): the address map, location codes, the bursts that
a stack accepts in a pica, the tags of reads in flight, and waking a pseudo-channel. -/
namespace Sys2Proof.Machine

/-! ### The address map (R227, R228) -/

/-- The stack, logical pseudo-channel and byte offset of LA. -/
def hbmOf (la : Nat) : Nat × Nat × Nat :=
  let g := la / 256
  let slot := g % 124
  (slot % 4, slot / 4, g / 124 * 256 + la % 256)

/-- The LA of a byte of a stack's logical pseudo-channel. -/
def hbmLA (stack lpc off : Nat) : Nat := (off / 256 * 124 + (lpc * 4 + stack)) * 256 + off % 256

/-- 1 KiB blocks of a pseudo-channel (Table 10-1). -/
def State.hbmBlocks (s : State) : Nat := if s.f F.HST_ID_ORDER = 0 then 524288 else 262144

/-- 32-byte bursts of the addressable space. -/
def State.hbmBursts (s : State) : Nat := s.hbmBlocks * 32 * 124

/-- The spare pseudo-channel of a stack. -/
def State.spare (s : State) (k : Nat) : Nat := s.f F.HBM_STACK_CFG_SPARE k

/-- map[stack][lpc]: the pseudo-channels other than SPARE in ascending order, but for an entry that a retirement replaced. -/
def State.hbmMap (s : State) (k lpc : Nat) : Nat :=
  mgetD s.hbm.map (k * 32 + lpc) (if lpc < s.spare k then lpc else lpc + 1)

/-- The pseudo-channel that serves an offset of a logical one: blocks a migration has copied come from the spare (R238). -/
def State.hbmPch (s : State) (k lpc off : Nat) : Nat :=
  let p := s.hbmMap k lpc
  if s.fb F.HBM_STACK_STATUS_MIGRATING k && s.f F.HBM_STACK_STATUS_RETIRED_PCH k == p &&
      decide (off / 1024 < s.f F.HBM_STACK_MIG_PTR k) then s.spare k else p

/-- The state code of a pseudo-channel: 0 active, 1 powered down, 2 retired, 3 spare. -/
def State.pchState (s : State) (k p : Nat) : Nat := s.f F.HBM_PCH_STATE_STATE k / 4 ^ p % 4

/-- Set the state code of a pseudo-channel. -/
def State.setPch (s : State) (k p v : Nat) : State :=
  let w := s.f F.HBM_PCH_STATE_STATE k
  s.setF F.HBM_PCH_STATE_STATE (w - w / 4 ^ p % 4 * 4 ^ p + v % 4 * 4 ^ p) k

/-- The location code of a pseudo-channel (R228). -/
def pchLocation (k p : Nat) : W64 := location 3 (3 + k) (p / 4) 0 (p % 4) naMacro naCell

/-- The bank of an offset: each 1 KiB block lies in one bank, and successive blocks in successive banks (R227). How many banks
there are and which holds block 0 the spec does not say (log entry 25). -/
def hbmBank (off : Nat) : Nat := (Config.hbmFirstBank + off / 1024) % Nat.max 1 Config.hbmBanks

/-- The location code of a bit of a pseudo-channel, at a byte offset: the 1 KiB block of the offset lies in one row, from a
place of that row that the spec does not state (log entry 25). -/
def burstLocation (k p off : Nat) : W64 :=
  location 1 (3 + k) (p / 4) 0 (p % 4) (hbmBank off % 4096)
    (Config.hbmRow (off / 1024) % 65536 * 4096 + (Config.hbmByte (off / 1024) + off % 1024) % 4096)

/-- The location code of a byte of LA. -/
def State.laLocation (s : State) (la : Nat) : W64 :=
  let x := hbmOf la
  burstLocation x.1 (s.hbmPch x.1 x.2.1 x.2.2) x.2.2

/-- Any element of a die, where the spec does not say which or how fine: every field finer than the level is all ones (R12). -/
def anyLocation (die : Nat) (free : W64) : W64 :=
  let n := free.toNat
  let lv := 1 + bits n 63 61 % 6
  let fine := fun (top hi lo : Nat) => if lv ≤ top then bits n hi lo else 2 ^ (hi + 1 - lo) - 1
  location lv die (if lv ≤ 5 then bits n 56 54 else 15) (fine 4 53 48) (fine 3 47 40) (fine 2 39 28) (fine 1 27 0)

/-! ### Bursts of a pica (R229, R231) -/

/-- HBM_ARB_CFG in force: a write applies from the next pica boundary (R229). -/
def State.arb (s : State) : W64 := s.hbm.arb.getD (s.rd .HBM_ARB_CFG 0 0 0)

/-- SHARE of a class. -/
def arbShare (v : W64) (c : Nat) : Nat := bits v.toNat (54 - 7 * c) (48 - 7 * c)

/-- STACK_BUDGET of a stack: in rotating order more than 320 acts as 320 (R231). -/
def State.arbBudget (s : State) (k : Nat) : Nat :=
  let b := F.HBM_ARB_CFG_STACK_BUDGET.of s.arb
  if s.fb F.HBM_STACK_CFG_ORDER k then Nat.min 320 b else b

/-- The whole bursts that the proportion leaves over go to the lowest class with demand. -/
def arbRest : Nat → List (Nat × Nat) → List Nat
  | _, [] => []
  | left, (_, d) :: l => Nat.min left d :: arbRest (left - d) l

/-- Bursts left over go to classes with unmet demand in proportion to their shares, capped at the demand, until no bursts or
no demand remain: a list of (share, unmet demand) by class. Fuel bounds the repetitions. -/
def arbLoop : Nat → Nat → List (Nat × Nat) → List Nat
  | 0, left, l => arbRest left l
  | n + 1, left, l =>
    let tot := l.foldl (fun a x => if x.2 = 0 then a else a + x.1) 0
    let g := l.map fun x => if tot = 0 ∨ x.2 = 0 then 0 else Nat.min x.2 (left * x.1 / tot)
    let sum := g.foldl (· + ·) 0
    if sum = 0 then arbRest left l
    else List.zipWith (· + ·) g (arbLoop n (left - sum) (List.zipWith (fun x y => (x.1, x.2 - y)) l g))

/-- The division of a stack's bursts among the classes, by their demands (R229). -/
def arbDivide (budget : Nat) (shares demand : List Nat) : List Nat :=
  let first := List.zipWith (fun sh d => Nat.min d (sh * budget / 64)) shares demand
  let left := budget - first.foldl (· + ·) 0
  List.zipWith (· + ·) first (arbLoop 16 left (List.zip shares (List.zipWith (· - ·) demand first)))

/-- The key of a class of a stack. -/
def arbKey (k c : Nat) : Nat := k * 8 + c

/-- The bursts of a stack taken in this pica, with those carried into it (key 7). -/
def State.arbTaken (s : State) (k : Nat) : Nat :=
  (List.range 8).foldl (fun a d => a + mgetD s.hbm.used (arbKey k d) 0) 0

/-- What a stack's requests took beyond its budget, which counts in the next pica (log entry 92). -/
def State.arbCarry (s : State) : SMap Nat :=
  (List.range 4).foldl (fun m k => msetD m (arbKey k 7) 0 (s.arbTaken k - s.arbBudget k)) []

/-- At a pica boundary a new HBM_ARB_CFG applies, and the bursts of the new pica are divided among the requests that found
none in the last one (R229). -/
def State.arbBoundary (s : State) : State :=
  let s1 := { s with hbm := { s.hbm with arb := none } }
  let kept := (List.range 4).foldl (fun (m : SMap Nat) k =>
    let d := (List.range 7).map fun c => mgetD s.hbm.unmet (arbKey k c) 0
    ((arbDivide (s1.arbBudget k) ((List.range 7).map (arbShare s1.arb)) d).zipIdx).foldl
      (fun (m : SMap Nat) x => msetD m (arbKey k x.2) 0 x.1) m) []
  { s1 with hbm := { s1.hbm with used := s.arbCarry, unmet := [], kept := kept } }

/-- A stack accepts a request of n bursts of a class in this pica: a burst is left for the class, within the stack's budget
and beside what is kept for the others. What the request takes beyond that counts in the next picas (log entry 92). -/
def State.arbRoom (s : State) (k c n : Nat) : Bool :=
  let kept := (List.range 7).foldl (fun a d =>
    if d = c then a else a + (mgetD s.hbm.kept (arbKey k d) 0 - mgetD s.hbm.used (arbKey k d) 0)) 0
  n == 0 || decide (s.arbTaken k + kept < s.arbBudget k)

/-- The bursts of a list of (LA, bytes) that one stack serves. -/
def spanBursts (k : Nat) (l : List (Nat × Nat)) : Nat :=
  l.foldl (fun a x => a + ((List.range ((x.1 + x.2 + 31) / 32 - x.1 / 32)).filter fun i =>
    (hbmOf ((x.1 / 32 + i) * 32)).1 == k).length) 0

/-! ### Tags of reads (R230) -/

/-- Tags of a read on a stack: one for each 128 bytes. -/
def readTags (k : Nat) (r : HbmRead) : Nat :=
  ((List.range (Nat.max 1 ((r.bytes + 127) / 128))).filter fun i => (hbmOf (r.la + 128 * i)).1 == k).length

/-- Tags reserved for a class on each stack. -/
def tagReserve (c : Nat) : Nat := match c with | 2 => 512 | 3 => 128 | 5 => 128 | _ => 0

/-- Tags in use on a stack by a class. -/
def State.tagsOf (s : State) (k c : Nat) : Nat :=
  (s.hbm.reads.filter fun r => r.cls == c).foldl (fun a r => a + readTags k r) 0

/-- Tags in use. -/
def State.tags (s : State) : Nat := (List.range 4).foldl (fun a k => (List.range 7).foldl (fun a c => a + s.tagsOf k c) a) 0

/-- A stack has n tags for a class, beside the tags reserved for the others. -/
def State.tagRoom (s : State) (k c n : Nat) : Bool :=
  decide (n + (List.range 7).foldl (fun a d =>
    let u := s.tagsOf k d
    a + (if d = c then u else Nat.max u (tagReserve d))) 0 ≤ 2048)

/-- A read finds its tags. -/
def State.readRoom (s : State) (r : HbmRead) : Bool := (List.range 4).all fun k => s.tagRoom k r.cls (readTags k r)

/-- IN_FLIGHT and PEAK of HBM_READS, while n more tags are in use for the time of one command. -/
def State.tagSync (s : State) (n : Nat) : State :=
  (s.setF F.HBM_READS_IN_FLIGHT s.tags).setF F.HBM_READS_PEAK
    (Nat.max (s.f F.HBM_READS_PEAK) (Nat.min 8192 (s.tags + n)))

/-- A read is issued and stays in flight; without a tag it waits at its requester. -/
def State.readBegin (s : State) (r : HbmRead) : State :=
  if s.hbm.reads.contains r || !s.readRoom r then s
  else { s with hbm := { s.hbm with reads := s.hbm.reads ++ [r] } }.tagSync 0

/-- A read in flight returns. -/
def State.readEnd (s : State) (r : HbmRead) : State :=
  if s.hbm.reads.contains r then { s with hbm := { s.hbm with reads := s.hbm.reads.erase r } }.tagSync 0 else s

/-! ### A request (R229, R230, R242, R243) -/

/-- A request wakes a powered-down pseudo-channel (R242). -/
def State.pchWake (s : State) (k p : Nat) : State := if s.pchState k p = 1 then s.setPch k p 0 else s

/-- The pseudo-channels of a range of LA wake. -/
def State.wakeSpan (s : State) (la n : Nat) : State :=
  (List.range (Nat.min 124 ((la + n + 255) / 256 - la / 256))).foldl (fun (u : State) i =>
    let x := hbmOf ((la / 256 + i) * 256)
    u.pchWake x.1 (u.hbmPch x.1 x.2.1 x.2.2)) s

/-- A requester's write of a range of LA: its pseudo-channels wake, and the poison of its bursts clears (R234, R242). -/
def State.hbmWritten (s : State) (la n : Nat) : State := (s.wakeSpan la n).unpoison la n

/-- The stacks take requests: start-up is over (R243). -/
def State.hbmReady (s : State) : Bool := s.fb F.HBM_STATUS_READY

/-- A request of a class for ranges of LA: whether it is accepted now. Before READY, or while a stack accepts no such bursts
in this pica or has no tag for a read, it waits at its requester, and what it asked for counts as demand of the class;
accepted, it wakes its pseudo-channels (R229, R230, R242, R243). A request is accepted whole in one pica (log entry 92). -/
def State.hbmAsk (s : State) (cls : Nat) (read : Bool) (l : List (Nat × Nat)) : Bool × State :=
  if !s.hbmReady then (false, s)
  else
    let need := fun k => spanBursts k l
    let tags := fun k => l.foldl (fun a x => a + readTags k ⟨x.1, x.2, cls⟩) 0
    let late := (List.range 4).filter fun k => !s.arbRoom k cls (need k)
    if !late.isEmpty then
      (false, { s with hbm := { s.hbm with unmet := late.foldl (fun m k =>
          mset m (arbKey k cls) (mgetD m (arbKey k cls) 0 + need k)) s.hbm.unmet } })
    else if read && (List.range 4).any fun k => !s.tagRoom k cls (tags k) then (false, s)
    else
      let s1 := { s with hbm := { s.hbm with used := (List.range 4).foldl (fun m k =>
        msetD m (arbKey k cls) 0 (mgetD m (arbKey k cls) 0 + need k)) s.hbm.used } }
      let s2 := l.foldl (fun (u : State) x => u.wakeSpan x.1 x.2) s1
      (true, if read then s2.tagSync ((List.range 4).foldl (fun a k => a + tags k) 0) else s2)

/-- The ranges of LA hold a poisoned burst. -/
def State.anyPoison (s : State) (l : List (Nat × Nat)) : Bool := l.any fun x => s.poisoned x.1 x.2

/-- The effect of a request where it is accepted. -/
def State.onHbm (s : State) (cls : Nat) (read : Bool) (l : List (Nat × Nat)) (f : State → State) : State :=
  let r := s.hbmAsk cls read l
  if r.1 then f r.2 else r.2

end Sys2Proof.Machine
end

