-- ==== Sys2Proof/Machine/Cnt.lean ====
section
/-! DEFINITION. Statistics, snapshots and the exporter (R385 to R392). -/
namespace Sys2Proof.Machine

/-- Base LA, bytes per record and number of records of a space (Table 16-3); a port's two halves are two records. -/
def statSpace : Nat → Nat × Nat × Nat
  | 0 => (0xC0000000, 32, 16777216)
  | 1 => (0xE0000000, 64, 1048576)
  | 2 => (0xE4000000, 32, 262144)
  | 3 => (0xE4800000, 32, 262144)
  | 4 => (0xE5000000, 64, 256)
  | _ => (0xE5010000, 32, 1024)

/-- The record and word of the statistics region that LA lies in. -/
def statAt (la : Nat) : Option (Nat × Nat × Nat) :=
  (List.range 6).findSome? fun sp =>
    let x := statSpace sp
    if x.1 ≤ la ∧ la < x.1 + x.2.1 * x.2.2 then some (sp, (la - x.1) / x.2.1, (la - x.1) % x.2.1 / 8) else none

/-- Word w of a record (R386): 64-bit frame counts, 96-bit byte counts in two words. -/
def statWord (sp : Nat) (v : List Nat) (w : Nat) : Nat :=
  let c := fun i => v.getD i 0
  let lo := fun n => n % 2 ^ 64
  let hi := fun n => n / 2 ^ 64 % 2 ^ 32
  match sp with
  | 0 | 5 => match w with | 0 => lo (c 0) | 1 => lo (c 1) | 2 => hi (c 1) | _ => 0
  | 1 | 4 =>
    match w with
    | 0 => lo (c 0) | 1 => lo (c 1) | 2 => hi (c 1) | 3 => lo (c 2) | 4 => lo (c 3) | 5 => hi (c 3) | _ => 0
  | 2 => match w with | 0 => lo (c 0) | 1 => lo (c 1) | 2 => hi (c 1) | _ => lo (c 2)
  | _ => match w with | 0 => lo (c 0) | 1 => lo (c 1) | 2 => lo (c 2) | _ => 0

/-- The 64-bit word of the statistics region at LA. -/
def State.statRead (s : State) (la : Nat) : Nat :=
  match statAt la with
  | some (sp, i, w) => statWord sp (mgetD s.cnt.recs (statKey sp i) []) w
  | none => 0

/-- Pointwise sum of counts. -/
def addCounts : List Nat → List Nat → List Nat
  | [], b => b
  | a, [] => a
  | x :: a, y :: b => (x + y) :: addCounts a b

/-- A cache entry whose accumulators are all zero. -/
def zeroCounts (l : List Nat) : Bool := l.all fun x => x == 0

/-- Entries of the cache (R388). -/
def cacheSize : Nat := 131072

/-- The key moved to the most recent end of the order of use. -/
def touchLru (l : List Nat) (k : Nat) : List Nat := l.filter (· != k) ++ [k]

/-- Add an update to bank A or B of a cached entry. -/
def StatEntry.addTo (e : StatEntry) (b : Bool) (v : List Nat) : StatEntry :=
  if b then { e with b := addCounts e.b v } else { e with a := addCounts e.a v }

/-- An update enters the cache (R388): it adds to its record's entry, or takes a free entry, or evicts the least recently
used entry that holds nothing of a frozen bank; without any such entry it does not enter. -/
def Stats.enter (c : Stats) (p : StatPost) (toB : Bool) : Option Stats :=
  match mget c.cache p.key with
  | some e => some { c with cache := mset c.cache p.key (e.addTo toB p.add), lru := touchLru c.lru p.key }
  | none =>
    let fresh := ({} : StatEntry).addTo toB p.add
    if c.cache.length < cacheSize then
      some { c with cache := mset c.cache p.key fresh, lru := touchLru c.lru p.key }
    else
      match c.lru.find? fun k => zeroCounts (mgetD c.cache k {}).b with
      | none => none
      | some v =>
        let e := mgetD c.cache v {}
        let ev := if zeroCounts e.a then c.evicted else mset c.evicted v (addCounts (mgetD c.evicted v []) e.a)
        some { c with cache := mset (merase c.cache v) p.key fresh, lru := touchLru (c.lru.filter (· != v)) p.key,
                      evicted := ev }

/-- Updates stamped at or after the snapshot boundary go to bank B until the release (R390). -/
def State.toBankB (s : State) (p : StatPost) : Bool :=
  match s.cnt.snapping with
  | some b => decide (b ≤ p.pica)
  | none => s.fb F.CNT_STATUS_FROZEN

/-- Updates that one bank of the cache takes in a pica (R387). -/
def bankShare : Nat := 128

/-- The oldest queued update p of a bank enters the cache and counts in the bank's share. -/
def Stats.take (c : Stats) (bank : Nat) (p : StatPost) (toB : Bool) : Option Stats :=
  (c.enter p toB).map fun d => { d with posts := d.posts.erase p, taken := mset d.taken bank (mgetD d.taken bank 0 + 1) }

/-- Meaning of STAT_UPDATE: the oldest queued update of a bank enters the cache; after 128 in one pica the bank's queue waits
for the next (R25, R387). -/
def execStatUpdate (bank : BitVec 4) (s : State) : Ans :=
  s.onCore fun s =>
    if bankShare ≤ mgetD s.cnt.taken bank.toNat 0 then s
    else
      match s.cnt.posts.find? fun p => p.key % 16 == bank.toNat with
      | none => s
      | some p =>
        match s.cnt.take bank.toNat p (s.toBankB p) with
        | none => s
        | some c => { s with cnt := c }

/-- The read-modify-write of a flush (R388); a poisoned record is written with the accumulated values alone, and the loss
is reported (R389). -/
def State.flushInto (s : State) (key : Nat) (v : List Nat) (bad : Bool := false) : State :=
  let sp := statSpace (key / 2 ^ 24)
  let la := sp.1 + key % 2 ^ 24 * sp.2.1
  if bad || s.poisoned la sp.2.1 then
    let s1 := { s with cnt := { s.cnt with recs := mset s.cnt.recs key v } }.hbmWritten la sp.2.1
    let s2 := (s1.setF F.CNT_STATUS_POISON 1).setF F.CNT_ERR_LOG_SPACE (key / 2 ^ 24)
    (s2.setF F.CNT_ERR_LOG_INDEX (key % 2 ^ 24)).raise 37
  else { s with cnt := { s.cnt with recs := mset s.cnt.recs key (addCounts (mgetD s.cnt.recs key []) v) } }

/-- Flush bank A of a cached entry: its record takes the accumulators and they clear; the entry stays its record's until an
eviction frees it (R388). -/
def State.flushEntry (s : State) (key : Nat) (bad : Bool := false) : State :=
  let e := mgetD s.cnt.cache key {}
  let s1 := s.flushInto key e.a bad
  { s1 with cnt := { s1.cnt with cache := mset s1.cnt.cache key { e with a := [0, 0, 0, 0] } } }

/-- An entry any of whose accumulators has reached 2^39. -/
def StatEntry.urgent (e : StatEntry) : Bool := (e.a.any fun x => decide (2 ^ 39 ≤ x)) || (e.b.any fun x => decide (2 ^ 39 ≤ x))

/-- The record that a flush slot serves: in this order that of an urgent entry, an evicted one, an entry of bank A during a
snapshot, and the entry whose sweep interval has expired, which the operand names (R388, R390). -/
def State.flushNext (s : State) (key : Nat) : Option Nat :=
  match s.cnt.cache.find? fun kv => kv.2.urgent && !zeroCounts kv.2.a with
  | some kv => some kv.1
  | none =>
    match s.cnt.evicted with
    | (k, _) :: _ => some k
    | [] =>
      if s.cnt.snapping.isSome then (s.cnt.cache.find? fun kv => !zeroCounts kv.2.a).map (·.1)
      else if zeroCounts (mgetD s.cnt.cache key {}).a then none else some key

/-- One flush slot serves its record; `bad` says the record's read came back uncorrectable (R389). -/
def State.counterFlush (s : State) (key : Nat) (bad : Bool) : State :=
  match s.cnt.cache.find? fun kv => kv.2.urgent && !zeroCounts kv.2.a with
  | some kv => (s.flushEntry kv.1 bad).sat F.CNT_CACHE_URGENT 1
  | none =>
    match s.cnt.evicted with
    | (k, v) :: rest => { s with cnt := { s.cnt with evicted := rest } }.flushInto k v bad
    | [] => match s.flushNext key with
      | some k => s.flushEntry k bad
      | none => s

/-- What the read of a record asks of HBM. -/
def recordSpan (key : Nat) : List (Nat × Nat) :=
  let sp := statSpace (key / 2 ^ 24)
  [(sp.1 + key % 2 ^ 24 * sp.2.1, sp.2.1)]

/-- Flush slots of a pica (R388). -/
def flushSlots : Nat := 32

/-- Meaning of COUNTER_FLUSH: a flush slot of the pica serves; where all of them have, or HBM takes no request for it, the
work waits (R25, R26, R229). -/
def execCounterFlush (key : BitVec 27) (bad : Bool) (s : State) : Ans :=
  s.onCore fun s =>
    match s.flushNext key.toNat with
    | none => s
    | some k =>
      if flushSlots ≤ s.cnt.flushed then s
      else s.onHbm 4 true (recordSpan k) fun s =>
        { s with cnt := { s.cnt with flushed := s.cnt.flushed + 1 } }.counterFlush key.toNat bad

/-- A snapshot is asked for or under way, or its freeze stands: SNAPSHOT is refused (R390). -/
def State.snapshotBusy (s : State) : Bool := s.cnt.snapAsked || s.cnt.snapping.isSome || s.fb F.CNT_STATUS_FROZEN

/-- The effect of SNAPSHOT = 1: taken at the next pica boundary; refused while one is in progress or FROZEN (R390). -/
def State.snapshotAsk (s : State) : State :=
  if s.snapshotBusy then s.cfgErr F.CNT_STATUS_CFG_ERR 39
  else { s with cnt := { s.cnt with snapAsked := true } }

/-- At a pica boundary a snapshot asked for begins at the new pica P. -/
def State.snapshotBegin (s : State) : State :=
  if s.cnt.snapAsked then { s with cnt := { s.cnt with snapAsked := false, snapping := some s.pica.num } } else s

/-- Bank A is empty: no entry, no eviction and no queued update from before P. -/
def State.bankAFlushed (s : State) (p : Nat) : Bool :=
  (s.cnt.cache.all fun kv => zeroCounts kv.2.a) && s.cnt.evicted.isEmpty && s.cnt.posts.all fun x => decide (p ≤ x.pica)

/-- Meaning of SNAPSHOT_DONE (R390). -/
def execSnapshotDone (s : State) : Ans :=
  s.onCore fun s =>
    match s.cnt.snapping with
    | none => s
    | some p =>
      if s.bankAFlushed p then
        let s1 := { s with cnt := { s.cnt with snapping := none, expired := false } }
        (((s1.wr .CNT_SNAP_PICA 0 0 0 (BitVec.ofNat 64 p)).setF F.CNT_STATUS_SNAP_DONE 1).setF
          F.CNT_STATUS_FROZEN 1).raise 35
      else s

/-- An export begins: a snapshot, BUSY (R391). -/
def State.exportBegin (s : State) : State :=
  ({ s with cnt := { s.cnt with exporting := true, exportWait := false, snapAsked := true, pulsed := false,
                                expired := false } }).setF F.CNT_EXP_STATUS_BUSY 1

/-- The exporter may run: in Doublet mode only while PRINCIPAL is set; a second member's stands idle (R323, R391). -/
def State.exporterRuns (s : State) : Bool := !s.doublet || s.fb F.RED_STATUS_PRINCIPAL

/-- The freeze ends (R390): bank B becomes the counting bank, and an export that waited begins, unless EN has cleared or the
exporter does not run (R391). -/
def State.unfreeze (s : State) : State :=
  let s1 := (s.setF F.CNT_STATUS_FROZEN 0).setF F.CNT_STATUS_SNAP_DONE 0
  let s2 := { s1 with cnt := { s1.cnt with cache := mmap (fun _ (e : StatEntry) => ({ a := addCounts e.a e.b } : StatEntry)) s1.cnt.cache } }
  if s2.cnt.exportWait && s2.fb F.CNT_EXP_CFG_EN && s2.exporterRuns then s2.exportBegin
  else { s2 with cnt := { s2.cnt with exportWait := false } }

/-- The effect of RELEASE = 1. -/
def State.snapshotRelease (s : State) : State := if s.fb F.CNT_STATUS_FROZEN then s.unfreeze else s

/-- Meaning of FREEZE_EXPIRY: FREEZE_MS have passed since SNAP_DONE (R390). -/
def execFreezeExpiry (s : State) : Ans :=
  s.onCore fun s =>
    if s.fb F.CNT_STATUS_FROZEN then
      let s1 := { s with cnt := { s.cnt with expired := s.cnt.exporting && !s.cnt.pulsed } }
      ((s1.setF F.CNT_STATUS_FREEZE_EXPIRED 1).raise 38).unfreeze
    else s

/-- Meaning of EXPORT_PERIOD: the exporter starts one export, or waits for a frozen snapshot's release; in Doublet mode
it runs only while PRINCIPAL is set (R391, R323). -/
def execExportPeriod (s : State) : Ans :=
  s.onCore fun s =>
    if s.fb F.CNT_EXP_CFG_EN && s.exporterRuns && !s.cnt.exporting then
      if s.cnt.snapAsked || s.cnt.snapping.isSome || s.fb F.CNT_STATUS_FROZEN then
        { s with cnt := { s.cnt with exportWait := true } }
      else s.exportBegin
    else s

/-- Meaning of EXPORT_PULSE: 2 µs after the exporter's pulse SEQ advances, or EXP_LATE sets when the data came late or
the freeze expired before the pulse; then the freeze ends (R391). -/
def execExportPulse (s : State) : Ans :=
  s.onCore fun s =>
    if s.cnt.exporting && s.cnt.pulsed && s.exporterRuns then
      let k := s.f F.CNT_EXP_CFG_CHANNEL
      let s1 := if s.fb F.DMA_CH_STATUS_LATE k || s.cnt.expired then s.setF F.CNT_STATUS_EXP_LATE 1
        else (s.setF F.CNT_EXP_STATUS_SEQ (s.f F.CNT_EXP_STATUS_SEQ + 1)).raise 36
      let s2 := { s1 with cnt := { s1.cnt with exporting := false, pulsed := false, expired := false } }
      (s2.setF F.CNT_EXP_STATUS_BUSY 0).snapshotRelease
    else s

/-- Every accumulator is flushed before a CORE reset by the MGT requests (R392). -/
def State.flushAll (s : State) : State :=
  let s1 := s.cnt.posts.foldl (fun t p => match t.cnt.enter p false with
    | some c => { t with cnt := { c with posts := [] } }
    | none => t.flushInto p.key p.add) s
  let s2 := s1.cnt.evicted.foldl (fun t kv => t.flushInto kv.1 kv.2) s1
  s2.cnt.cache.foldl (fun t kv => t.flushInto kv.1 (addCounts kv.2.a kv.2.b)) s2

end Sys2Proof.Machine
end

