-- ==== Sys2Proof/Machine/Line.lean ====
section
/-! DEFINITION. Line ports: lanes and modes, alignment, OTN overhead, defects, per-second counters, lane tests, and the
receive checks of a frame (chapter 3). -/
namespace Sys2Proof.Machine

/-! ### Modes and lanes -/

/-- Lanes of a port mode (Table 3-1); 0 where the encoding is reserved or no port start. -/
def modeLanes : Nat → Nat
  | 1 => 1 | 2 => 2 | 3 => 4 | 4 => 8 | 8 => 1 | 9 => 1 | 10 => 2 | 11 => 4 | _ => 0

/-- Alignment machines of a port mode (R64): one for each FEC lane of the Ethernet PCS, one for each FlexO instance of an
OTUCn. Their numbers are those of IEEE 802.3 and G.709.1 (PRESUMED, log entry 16). -/
def alignLanes : Nat → Nat
  | 1 => 8 | 2 => 16 | 3 => 32 | 4 => 16 | 8 => 1 | 9 => 2 | 10 => 4 | 11 => 8 | _ => 0

/-- The spacing in bits of the alignment pattern on one FEC lane or FlexO instance, as those standards set it (PRESUMED, log
entry 16). -/
def patternSpacing : Nat → Nat
  | 1 => 2785280 | 2 => 2785280 | 3 => 2785280 | 4 => 11141120 | 8 => 696320 | 9 => 696320 | 10 => 696320 | 11 => 696320
  | _ => 0

/-- Bits that pass in 10 µs on one FEC lane or FlexO instance (PRESUMED, log entry 16). -/
def laneBits : Nat → Nat
  | 1 => 265625 | 2 => 265625 | 3 => 265625 | 4 => 1062500 | _ => 1118100

/-- An OTN mode. -/
def modeOtn (m : Nat) : Bool := 8 ≤ m && m ≤ 11

/-- MODE of a device port. -/
def State.portMode (s : State) (p : Nat) : Nat := s.pf F.LNE_PORT_CFG_MODE p
/-- An enabled port. -/
def State.portEn (s : State) (p : Nat) : Bool := s.pfb F.LNE_PORT_CFG_EN p && modeLanes (s.portMode p) != 0
/-- An OTN port. -/
def State.portOtn (s : State) (p : Nat) : Bool := modeOtn (s.portMode p)

/-- The line reference of a port has stopped (Table 17-4: A clocks slices 0 to 3, B slices 4 to 7). -/
def State.refLostAt (s : State) (p : Nat) : Bool := s.grp.refLost.contains (if p < 64 then .lineA else .lineB)

/-- The port mix of a slice is legal (R56): `m` gives the MODE of each local lane. -/
def legalMix (m : Nat → Nat) : Bool :=
  (List.range 16).all (fun l =>
    m l == 0 ||
    (modeLanes (m l) != 0 && l % modeLanes (m l) == 0 && l + modeLanes (m l) ≤ 16 &&
      (List.range 16).all fun k => !(l < k && k < l + modeLanes (m l)) || m k == 0)) &&
  decide (((List.range 16).filter fun l => modeOtn (m l)).length ≤ 4)

/-- The local port that owns a local lane of a slice, if any. -/
def State.laneOwner (s : State) (sl l : Nat) : Option Nat :=
  (List.range 16).find? fun p =>
    let w := modeLanes (s.f F.LNE_PORT_CFG_MODE sl p)
    w != 0 && p ≤ l && l < p + w

/-- The lane belongs to an enabled port. -/
def State.laneInUse (s : State) (sl l : Nat) : Bool :=
  match s.laneOwner sl l with
  | some p => s.fb F.LNE_PORT_CFG_EN sl p
  | none => false

/-! ### Live counters (Table 3-12) -/

/-- Add to a live counter, which saturates at 0xFFFF_FFFF (R75). -/
def State.live (s : State) (p c n : Nat) : State :=
  { s with lne := { s.lne with
      live := msetD s.lne.live (p * 32 + c) 0 (Nat.min 0xFFFFFFFF (mgetD s.lne.live (p * 32 + c) 0 + n)) } }

def ctrRxOk : Nat := 0
def ctrFcs : Nat := 1
def ctrRunt : Nat := 2
def ctrOversize : Nat := 3
def ctrTrunc : Nat := 4
def ctrTx : Nat := 5
def ctrCw : Nat := 6
def ctrCwCorr : Nat := 7
def ctrCwUncorr : Nat := 8
def ctrFecSym : Nat := 9
def ctrBlkErr : Nat := 10
def ctrAmErr : Nat := 11
def ctrSmBip : Nat := 12
def ctrSmBei : Nat := 13
def ctrPmBip : Nat := 14
def ctrPmBei : Nat := 15
def ctrChecCorr : Nat := 16
def ctrChecUncorr : Nat := 17
def ctrPfcs : Nat := 18
def ctrUpi : Nat := 19
def ctrDefect : Nat := 20
def ctrTxDown : Nat := 21

/-! ### Defects (R69 to R73) -/

/-- The defects that suppress defect d (Table 3-8), by bit number; `tim` says TIM_ACT is set. -/
def suppressors (otn tim : Bool) (d : Nat) : List Nat :=
  let toLodsk := if otn then [0, 1, 2, 3, 4] else [0, 1, 2, 4]
  let toHiSer := toLodsk ++ [5]
  let otuFail := [0, 1, 2, 3, 4, 5] ++ (if tim then [12] else [])
  match d with
  | 0 => []
  | 1 => [0]
  | 2 => [0, 1]
  | 3 => [0, 1, 2]
  | 4 => if otn then [0, 1, 2, 3] else [0, 1, 2]
  | 5 => toLodsk
  | 6 => toHiSer
  | 7 => toHiSer
  | 8 => toHiSer ++ [7]
  | 12 => toHiSer
  | 17 => toHiSer
  | 19 => toHiSer
  | 9 => otuFail
  | 10 => otuFail ++ [9]
  | 11 => otuFail ++ [9, 10]
  | 13 => otuFail ++ [9, 10, 11]
  | 18 => otuFail ++ [9, 10, 11]
  | 20 => otuFail ++ [9, 10, 11]
  | 14 => otuFail ++ [9, 10, 11, 13]
  | 15 => otuFail ++ [9, 10, 11, 13, 18, 20, 14]
  | 16 => otuFail ++ [9, 10, 11, 13, 18, 20, 14, 15]
  | _ => []

/-- Defect d applies to the port type (Table 3-8). -/
def defectApplies (otn : Bool) (d : Nat) : Bool :=
  if d = 0 ∨ d = 1 ∨ d = 2 ∨ d = 4 ∨ d = 5 ∨ d = 6 then true
  else if d = 7 ∨ d = 8 then !otn
  else otn && d ≤ 20

/-- The reported defects of raw ones: raw and not suppressed by a raw one. -/
def reported (otn tim : Bool) (raw : Nat) : Nat :=
  (List.range 21).foldl (fun a d =>
    if bit raw d && !((suppressors otn tim d).any fun x => bit raw x) then a + 2 ^ d else a) 0

/-- RX_FAIL for Ethernet, ODU_FAIL for OTN: the port delivers no frames (R70). -/
def rxFail (otn tim : Bool) (raw : Nat) : Bool :=
  if otn then [0, 1, 2, 3, 4, 5, 9, 10, 11, 14, 15].any (bit raw) || (tim && (bit raw 12 || bit raw 13))
  else [0, 1, 2, 4, 5, 7].any (bit raw)

/-- OTU_FAIL (Table 3-8's fault sets). -/
def otuFail (tim : Bool) (raw : Nat) : Bool := [0, 1, 2, 3, 4, 5].any (bit raw) || (tim && bit raw 12)

/-- TIM_ACT of a port. -/
def State.timAct (s : State) (p : Nat) : Bool := s.pfb F.LNE_OTN_CFG_TIM_ACT p
/-- The raw defects of a port. -/
def State.raw (s : State) (p : Nat) : Nat := (s.rd .LNE_DEFECT_RAW (p / 16) (p % 16) 0).toNat

/-- The port's receive failure condition. -/
def State.rxFailing (s : State) (p : Nat) : Bool := rxFail (s.portOtn p) (s.timAct p) (s.raw p)

/-- LINK_UP follows the raw defects (R70). -/
def State.linkUpdate (s : State) (p : Nat) : State :=
  let up := s.portEn p && !s.rxFailing p && (s.portOtn p || !bit (s.raw p) F.DEFECT_RF)
  s.setPf F.LNE_PORT_STATUS_LINK_UP (b2n up) p

/-- A port cannot send frames (R72). -/
def State.cannotSend (s : State) (p : Nat) : Bool :=
  !s.portEn p || s.pfb F.LNE_PORT_CTRL_TX_DISABLE p ||
    (!s.portOtn p && (s.rxFailing p || s.pfb F.LNE_PORT_CTRL_FORCE_RF p || bit (s.raw p) F.DEFECT_RF))

/-- What an Ethernet port sends in place of frames: remote fault (0) or idle (1); none where it may send (R71). -/
def State.inPlace (s : State) (p : Nat) : Option Nat :=
  if !s.portEn p || s.portOtn p || s.pfb F.LNE_PORT_CTRL_TX_DISABLE p then none
  else if s.rxFailing p || s.pfb F.LNE_PORT_CTRL_FORCE_RF p then some 0
  else if bit (s.raw p) F.DEFECT_RF then some 1
  else none

/-- A port whose transmit output returns to its own receiver: near or serial loopback (R76). -/
def State.loopedIn (s : State) (p : Nat) : Bool :=
  s.pf F.LNE_PORT_CTRL_LOOPBACK p == 1 || s.pf F.LNE_PORT_CTRL_LOOPBACK p == 3

/-- What the port sends in place of frames goes out on the line (R71); in far loopback the line transmitter sends the received
signal, in serial loopback it is muted (R76). -/
def State.sendInPlace (s : State) (p : Nat) : State :=
  match s.inPlace p with
  | some c => if 2 ≤ s.pf F.LNE_PORT_CTRL_LOOPBACK p then s else s.emit (.lineSignal p c)
  | none => s

/-- A port that has begun to send something else in place of frames, or to send frames again, does so (R71): `was` is what it
sent before. -/
def State.signalChange (s : State) (p : Nat) (was : Option Nat) : State :=
  if s.inPlace p = was then s else s.sendInPlace p

/-- The 64 bytes of a TTI area of a port. -/
def State.ttiBytes (s : State) (r : Reg) (p : Nat) : List Byte :=
  (List.range 16).flatMap fun k => leBytes 4 (s.rd r (p / 16) (p % 16) k).toNat

/-- The overhead an OTN port sends (R61 to R63, R71): the TTI of both transmit areas, payload type 0x05, BDI while its failure
is raw, and the BIP-8 counts of the last received frame as BEI. -/
def State.otnSend (s : State) (p : Nat) : OtnSend :=
  let o := mgetD s.lne.otn p {}
  { smTti := s.ttiBytes .LNE_TTI_TX_SM p, pmTti := s.ttiBytes .LNE_TTI_TX_PM p, smBdi := otuFail (s.timAct p) (s.raw p)
    pmBdi := s.rxFailing p, smBei := o.smBei, pmBei := o.pmBei }

/-- The port sends OTUCn frames: an enabled OTN port whose transmitter is not muted, disabled or looped from the line. -/
def State.otnOpen (s : State) (p : Nat) : Bool :=
  s.portEn p && s.portOtn p && !s.pfb F.LNE_PORT_CTRL_TX_DISABLE p && decide (s.pf F.LNE_PORT_CTRL_LOOPBACK p < 2)

/-- An OTN port sends an OTUCn frame, whose payload is GFP idle where no client frame waits (R61, R422). Its BIP-8 bytes are
free values: they are computed over the bits of the frame before it, which the commands do not carry (log entry 107). -/
def State.sendOtn (s : State) (p : Nat) : State :=
  if s.otnOpen p then
    let x := s.fresh
    x.2.emit (.otnTx p (x.2.otnSend p) (x.1.setWidth 8) ((x.1 >>> 8).setWidth 8))
  else s

/-- An OTN port whose SM or PM BDI is no longer what it was, `was`, sends it (R71). -/
def State.bdiChange (s : State) (p : Nat) (was : OtnSend) : State :=
  if (s.otnSend p).smBdi = was.smBdi ∧ (s.otnSend p).pmBdi = was.pmBdi then s else s.sendOtn p

/-- New raw defects of a port: reported and sticky follow, the second's defects accumulate, LINK_UP follows, and a change
of an unmasked reported bit raises LNE_DEFECT with the reported bits (R69, R70, R73). What the port sends follows (R71). -/
def State.setRaws (s : State) (p raw : Nat) : State :=
  let rpt0 := (s.rd .LNE_DEFECT_RPT (p / 16) (p % 16) 0).toNat
  let rpt := reported (s.portOtn p) (s.timAct p) raw
  let s1 := (s.wr .LNE_DEFECT_RAW (p / 16) (p % 16) 0 (BitVec.ofNat 64 raw)).wr .LNE_DEFECT_RPT (p / 16) (p % 16) 0
    (BitVec.ofNat 64 rpt)
  let sticky := (s.rd .LNE_DEFECT_STICKY (p / 16) (p % 16) 0).toNat ||| (rpt - (rpt &&& rpt0))
  let s2 := s1.wr .LNE_DEFECT_STICKY (p / 16) (p % 16) 0 (BitVec.ofNat 64 sticky)
  let sec := mgetD s2.lne.live (p * 32 + ctrDefect) 0 ||| rpt
  let s3 := { s2 with lne := { s2.lne with live := msetD s2.lne.live (p * 32 + ctrDefect) 0 sec } }
  let s4 := ((s3.linkUpdate p).signalChange p (s.inPlace p)).bdiChange p (s.otnSend p)
  let mask := (s.rd .LNE_DEFECT_MASK (p / 16) (p % 16) 0).toNat
  let changed := rpt ^^^ rpt0
  if changed - (changed &&& mask) = 0 then s4 else s4.raiseD (128 + p) (BitVec.ofNat 64 rpt)

/-- Set or clear one raw defect, if it applies to the port type. -/
def State.setRaw (s : State) (p d : Nat) (b : Bool) : State :=
  if defectApplies (s.portOtn p) d && bit (s.raw p) d != b then s.setRaws p (putBit (s.raw p) d b) else s

/-- Clock recovery cannot lock while the port's reference stands: LOL stays (R416). -/
def State.lolStays (s : State) (p d : Nat) (raw : Bool) : Bool := d == 1 && !raw && s.refLostAt p

/-- Meaning of DEFECT_CHANGE: a defect of an enabled port becomes raw or ceases to be. -/
def execDefectChange (port : BitVec 7) (defect : Fin 21) (raw : Bool) (s : State) : Ans :=
  s.onCore fun s =>
    if s.portEn port.toNat && !s.lolStays port.toNat defect.val raw then s.setRaw port.toNat defect.val raw else s

/-- The conditions of Table 3-8 that last a stated time: LOS either way, the end of LOL, the end of GFP_CSF. -/
def timedDefect (d : Nat) (present : Bool) : Bool := d == 0 || (d == 1 && !present) || (d == 16 && !present)

/-- Meaning of DEFECT_TIMER: the time of a timed condition has passed (log entry 7). -/
def execDefectTimer (port : BitVec 7) (defect : Fin 21) (present : Bool) (s : State) : Ans :=
  s.onCore fun s =>
    if s.portEn port.toNat && timedDefect defect.val present && !s.lolStays port.toNat defect.val present then
      s.setRaw port.toNat defect.val present
    else s

/-! ### Alignment (R64 to R68) -/

/-- One evaluation of a pattern position by an alignment machine (R64, R65): N repeats lock, M errored patterns in a row
unlock, at most four candidates are open. The second result says the machine has returned to HUNT from lock. -/
def Align.eval (a : Align) (n m spacing x : Nat) (hit : Bool) : Align × Bool :=
  if a.locked then
    if x = a.expect then
      let err := if hit then 0 else a.err + 1
      if err = m then ({}, true) else ({ a with expect := x + spacing, err := err }, false)
    else (a, false)
  else
    match a.cands.find? fun c => c.1 == x with
    | some c =>
      let rest := a.cands.filter fun d => d.1 != x
      if hit then
        if c.2 + 1 = n then ({ locked := true, expect := x + spacing }, false)
        else ({ a with cands := a.cands.map fun d => if d.1 = x then (x + spacing, d.2 + 1) else d }, false)
      else ({ a with cands := rest }, false)
    | none =>
      if hit && a.cands.length < 4 then ({ a with cands := a.cands ++ [(x + spacing, 0)] }, false) else (a, false)

/-- 0 HUNT, 1 CONFIRM, 2 LOCKED. -/
def Align.code (a : Align) : Nat := if a.locked then 2 else if a.cands.isEmpty then 0 else 1

/-- N of a configuration field: 0 acts as 3. -/
def alignN (v : Nat) : Nat := if v = 0 then 3 else v
/-- M of a configuration field: 0 acts as 5. -/
def alignM (v : Nat) : Nat := if v = 0 then 5 else v

/-- The machine of a lane of a line port. -/
def State.alignOf (s : State) (p l : Nat) : Align := mgetD s.lne.align (p * 32 + l) {}

/-- Every machine of the port is LOCKED. -/
def State.allLocked (s : State) (p : Nat) : Bool := (List.range (alignLanes (s.portMode p))).all fun l => (s.alignOf p l).locked

/-- ALIGN_STATE and CANDIDATES show the worst lane: the least advanced state, then the fewest candidates (DESIGN CHOICE, log
entry 105). -/
def State.alignStatus (s : State) (p : Nat) : State :=
  let ms := (List.range (alignLanes (s.portMode p))).map (s.alignOf p)
  let w := ms.foldl (fun a m => if m.code < a.code ∨ (m.code = a.code ∧ m.cands.length < a.cands.length) then m else a)
    (ms.headD {})
  (s.setPf F.LNE_PORT_STATUS_ALIGN_STATE w.code p).setPf F.LNE_PORT_STATUS_CANDIDATES w.cands.length p

/-- How far the pattern of a lane lies behind lane 0's, in bits: the difference of their next positions taken to the nearest
whole spacing. -/
def lag (spacing x x0 : Nat) : Int :=
  let d := ((x : Int) - x0).emod spacing
  if (spacing : Int) < 2 * d then d - spacing else d

/-- The skew in bits between the lanes of a port whose machines are all locked (R68): the greatest lag less the least. -/
def State.skewBits (s : State) (p : Nat) : Nat :=
  let m := s.portMode p
  let ls := (List.range (alignLanes m)).map fun l => lag (patternSpacing m) (s.alignOf p l).expect (s.alignOf p 0).expect
  (ls.foldl max 0 - ls.foldl min 0).toNat

/-- That skew in whole ns. -/
def State.skewNs (s : State) (p : Nat) : Nat := s.skewBits p * 10000 / laneBits (s.portMode p)

/-- The received lanes of a port in the order of their marker identities (R68): the lane that carries identity 0 first. -/
def State.laneOrder (s : State) (p : Nat) : List Nat :=
  let n := alignLanes (s.portMode p)
  (List.range n).filterMap fun m => (List.range n).find? fun l => mgetD s.lne.ident (p * 32 + l) l == m

/-- When all lanes of a port are locked, it reorders them by their marker identity, SKEW_NS reports its skew, and a skew above
180 ns is LODSK (R68). -/
def State.deskew (s : State) (p : Nat) : State :=
  if s.allLocked p then
    let s1 := { s with lne := { s.lne with order := mset s.lne.order p (s.laneOrder p) } }
    (s1.setPf F.LNE_PORT_STATUS_SKEW_NS (Nat.min 0xFF (s.skewNs p)) p).setRaw p 4
      (decide (180 * laneBits (s.portMode p) < s.skewBits p * 10000))
  else { s with lne := { s.lne with order := merase s.lne.order p } }

/-- A line port's machine evaluates a position; LOA follows, an errored pattern in lock counts in AM_ERR, and a return to
HUNT counts in RESTARTS. A pattern that matched names the lane's marker identity. -/
def State.alignLine (s0 : State) (p l x : Nat) (hit : Bool) (marker : Nat) : State :=
  let s := if hit then { s0 with lne := { s0.lne with ident := mset s0.lne.ident (p * 32 + l) marker } } else s0
  let a := s.alignOf p l
  let r := a.eval (alignN (s.pf F.LNE_ALIGN_CFG_N p)) (alignM (s.pf F.LNE_ALIGN_CFG_M p))
    (patternSpacing (s.portMode p)) x hit
  let s1 := { s with lne := { s.lne with align := msetD s.lne.align (p * 32 + l) {} r.1 } }
  let s2 := if a.locked && x == a.expect && !hit then s1.live p ctrAmErr 1 else s1
  let s3 := if r.2 then s2.satP F.LNE_PORT_STATUS_RESTARTS 1 p else s2
  ((s3.alignStatus p).setRaw p 2 (!s3.allLocked p)).deskew p

/-! ### OTN overhead (R62, R63, R67) -/

/-- Store 64 bytes in a TTI area: byte 0 is the low byte of its first word. -/
def State.setTti (s : State) (r : Reg) (p : Nat) (b : List Byte) : State :=
  (List.range 16).foldl (fun t k => t.wr r (p / 16) (p % 16) k (BitVec.ofNat 64 (leNat (slice b (4 * k) 4)))) s

/-- The bytes a TTI compare mode compares (Table 3-6). -/
def timDiffers (mode : Nat) (rx exp : List Byte) : Bool :=
  match mode with
  | 0 => false
  | 1 => slice rx 0 16 != slice exp 0 16
  | 2 => slice rx 16 16 != slice exp 16 16
  | _ => slice rx 0 32 != slice exp 0 32

/-- A new run length: one more where the value repeats, else one. -/
def runLen (same : Bool) (n : Nat) : Nat := if same then n + 1 else 1

/-- MFAS: the runs of frames out of sequence and in sequence, and LOM (R67). A port's first frame has no last one to be
compared with and counts for neither (DESIGN CHOICE, log entry 84). -/
def State.otnMfas (s : State) (p m : Nat) : State :=
  let o := mgetD s.lne.otn p {}
  let o1 : OtnRx := match o.mfas with
    | none => { o with mfas := some m }
    | some last =>
      if m = (last + 1) % 256 then { o with mfas := some m, badRun := 0, goodRun := o.goodRun + 1 }
      else { o with mfas := some m, badRun := o.badRun + 1, goodRun := 0 }
  let s1 := { s with lne := { s.lne with otn := mset s.lne.otn p o1 } }
  if alignM (s.pf F.LNE_ALIGN_CFG_M p) ≤ o1.badRun then s1.setRaw p 3 true
  else if alignN (s.pf F.LNE_ALIGN_CFG_N p) ≤ o1.goodRun then s1.setRaw p 3 false
  else s1

/-- SM_TIM, PM_TIM and PLM follow what was accepted and what is expected (Table 3-8). -/
def State.otnCompare (s : State) (p : Nat) : State :=
  let o := mgetD s.lne.otn p {}
  let s1 := if o.smAcc then s.setRaw p 12
      (timDiffers (s.pf F.LNE_OTN_CFG_SM_TIM_MODE p) (s.ttiBytes .LNE_TTI_RX_SM p) (s.ttiBytes .LNE_TTI_EXP_SM p)) else s
  let s2 := if o.pmAcc then s1.setRaw p 13
      (timDiffers (s.pf F.LNE_OTN_CFG_PM_TIM_MODE p) (s.ttiBytes .LNE_TTI_RX_PM p) (s.ttiBytes .LNE_TTI_EXP_PM p)) else s1
  match o.ptAcc with
  | some pt => s2.setRaw p 14 (pt != s.pf F.LNE_OTN_CFG_EXP_PT p)
  | none => s2

/-- A write of what the overhead is compared with, or of TIM_ACT: the conditions, the reported defects and LINK_UP follow
(R62, R69, R70). -/
def State.otnReconfig (s : State) (p : Nat) : State :=
  if s.portEn p && s.portOtn p then
    let s1 := s.otnCompare p
    s1.setRaws p (s1.raw p)
  else s

/-- Trail traces: 64 bytes make a multiframe; the same 64 in 3 consecutive ones are accepted, stored and compared. -/
def State.otnTti (s : State) (p m : Nat) (sm pm : Byte) : State :=
  let o := mgetD s.lne.otn p {}
  let smB := if m % 64 = 0 then [sm] else o.smBuf ++ [sm]
  let pmB := if m % 64 = 0 then [pm] else o.pmBuf ++ [pm]
  if m % 64 = 63 ∧ smB.length = 64 ∧ pmB.length = 64 then
    let smRun := runLen (smB == o.smLast) o.smRun
    let pmRun := runLen (pmB == o.pmLast) o.pmRun
    let o1 := { o with smBuf := [], pmBuf := [], smLast := smB, pmLast := pmB, smRun := smRun, pmRun := pmRun
                       smAcc := o.smAcc || decide (3 ≤ smRun), pmAcc := o.pmAcc || decide (3 ≤ pmRun) }
    let s1 := { s with lne := { s.lne with otn := mset s.lne.otn p o1 } }
    let s2 := if 3 ≤ smRun then s1.setTti .LNE_TTI_RX_SM p smB else s1
    (if 3 ≤ pmRun then s2.setTti .LNE_TTI_RX_PM p pmB else s2).otnCompare p
  else { s with lne := { s.lne with otn := mset s.lne.otn p { o with smBuf := smB, pmBuf := pmB } } }

/-- Payload type: the byte of a multiframe's first frame, accepted when the same in 3 consecutive multiframes; PLM. -/
def State.otnPt (s : State) (p m pt : Nat) : State :=
  if m ≠ 0 then s
  else
    let o := mgetD s.lne.otn p {}
    let run := runLen (pt == o.ptLast) o.ptRun
    let o1 := { o with ptLast := pt, ptRun := run, ptAcc := if 3 ≤ run then some pt else o.ptAcc }
    { s with lne := { s.lne with otn := mset s.lne.otn p o1 } }.otnCompare p

/-- A STAT defect with its value v: declared by 3 consecutive frames that carry v, cleared by 3 that carry another
(Table 3-8). -/
def State.otnStat (s : State) (p d v : Nat) : State :=
  let o := mgetD s.lne.otn p {}
  if o.stat = v ∧ 3 ≤ o.statRun then s.setRaw p d true
  else if 3 ≤ mgetD o.other v 0 then s.setRaw p d false
  else s

/-- BDI in 5 consecutive frames and STAT in 3 (Table 3-8). -/
def State.otnRuns (s : State) (p : Nat) (h : OtnOverhead) : State :=
  let o := mgetD s.lne.otn p {}
  let st := h.stat.toNat
  let smRun := runLen (h.smBdi == o.smBdiVal) o.smBdiRun
  let pmRun := runLen (h.pmBdi == o.pmBdiVal) o.pmBdiRun
  let other := [5, 6, 7].foldl (fun (m : SMap Nat) v => if st = v then merase m v else mset m v (mgetD m v 0 + 1)) o.other
  let o1 := { o with smBdiVal := h.smBdi, smBdiRun := smRun, pmBdiVal := h.pmBdi, pmBdiRun := pmRun, stat := st,
                     statRun := runLen (st == o.stat) o.statRun, other := other, smBei := h.smBip, pmBei := h.pmBip }
  let s1 := { s with lne := { s.lne with otn := mset s.lne.otn p o1 } }
  let s2 := if 5 ≤ smRun then s1.setRaw p 17 h.smBdi else s1
  let s3 := if 5 ≤ pmRun then s2.setRaw p 18 h.pmBdi else s2
  ((s3.otnStat p 9 7).otnStat p 10 5).otnStat p 11 6

/-- The overhead the receiver sees: the line's, or in near and serial loopback what the port itself sends, in the frame of the
same MFAS (R76); a frame of the port's own has the normal STAT. -/
def State.otnSeen (s : State) (p : Nat) (oh : OtnOverhead) : OtnOverhead :=
  if s.loopedIn p then
    let x := s.otnSend p
    { oh with smTti := x.smTti.getD (oh.mfas.toNat % 64) 0, pmTti := x.pmTti.getD (oh.mfas.toNat % 64) 0, pt := x.pt
              smBdi := x.smBdi, pmBdi := x.pmBdi, smBei := x.smBei, pmBei := x.pmBei, stat := 1 }
  else oh

/-- Meaning of OTN_FRAME_RECEIVE: the frame's overhead is taken, and the port's own frame of that time carries its BIP-8
counts back as BEI (R63). -/
def execOtnFrameReceive (port : BitVec 7) (overhead : OtnOverhead) (s : State) : Ans :=
  s.onCore fun s =>
    let p := port.toNat
    let oh := s.otnSeen p overhead
    if s.portEn p && s.portOtn p then
      let s1 := (((s.live p ctrSmBip oh.smBip).live p ctrPmBip oh.pmBip).live p ctrSmBei oh.smBei).live p ctrPmBei oh.pmBei
      let m := oh.mfas.toNat
      ((((s1.otnMfas p m).otnTti p m oh.smTti oh.pmTti).otnPt p m oh.pt.toNat).otnRuns p oh).sendOtn p
    else s

/-- GFP_DELTA: 0 acts as 1. -/
def State.gfpDelta (s : State) (p : Nat) : Nat :=
  let d := s.pf F.LNE_ALIGN_CFG_GFP_DELTA p
  if d = 0 then 1 else d

/-- One core header check (R67): a correct cHEC leaves HUNT, GFP_DELTA in a row in PRESYNC enter SYNC, an uncorrectable
one leaves; single-bit errors are corrected in SYNC only. -/
def Gfp.next (g : Gfp) (delta : Nat) (c : Chec) : Gfp :=
  match g.state, c with
  | .hunt, .correct => { state := .presync, run := 0 }
  | .hunt, _ => {}
  | .presync, .correct => if delta ≤ g.run + 1 then { state := .sync } else { g with run := g.run + 1 }
  | .presync, _ => {}
  | .sync, .bad => {}
  | .sync, _ => g

/-- Meaning of GFP_CORE_HEADER. -/
def execGfpCoreHeader (port : BitVec 7) (chec : Chec) (s : State) : Ans :=
  s.onCore fun s =>
    let p := port.toNat
    if s.portEn p && s.portOtn p then
      let g := mgetD s.lne.gfp p {}
      let g1 := g.next (s.gfpDelta p) chec
      let s1 := { s with lne := { s.lne with gfp := msetD s.lne.gfp p {} g1 } }
      let s2 := match g.state, chec with
        | .sync, .oneBit => s1.live p ctrChecCorr 1
        | .sync, .bad => s1.live p ctrChecUncorr 1
        | _, _ => s1
      s2.setRaw p 15 (g1.state != .sync)
    else s

/-! ### Enabling, disabling, restarting (R56 to R58) -/

/-- What a port's receiver has found so far is forgotten: alignment, lane identities, overhead and delineation. -/
def State.portForget (s : State) (p : Nat) : State :=
  { s with lne := { s.lne with
      align := mfilter (fun k _ => k / 32 != p) s.lne.align
      ident := mfilter (fun k _ => k / 32 != p) s.lne.ident
      order := merase s.lne.order p
      otn := merase s.lne.otn p
      gfp := merase s.lne.gfp p } }

/-- A port's machines start in HUNT: LOA, and GFP_LFD of an OTN port, are raw until they lock (R64, R67), and LOL is while the
port's reference stands (R416). -/
def State.portStart (s : State) (p : Nat) : State :=
  let raw := putBit (if s.portOtn p then putBit (s.raw p) 15 true else s.raw p) 2 true
  ((s.portForget p).alignStatus p).setRaws p (if s.refLostAt p then putBit raw 1 true else raw)

/-- A port stops: its machines, its defect conditions and its runs of degraded seconds end with it (R74, log entry 17). -/
def State.portStop (s : State) (p : Nat) : State :=
  let s0 := s.portForget p
  let s1 := { s0 with lne := { s0.lne with
      degHi := mfilter (fun k _ => k / 4 != p) s0.lne.degHi
      degLo := mfilter (fun k _ => k / 4 != p) s0.lne.degLo } }
  ((s1.setPf F.LNE_PORT_STATUS_ALIGN_STATE 0 p).setPf F.LNE_PORT_STATUS_CANDIDATES 0 p).setRaws p 0

/-- RESTART of an enabled port: alignment runs again from HUNT (R66, R42). RESTARTS counts the returns from LOCKED, and one
for a restart of a port with a locked machine (DESIGN CHOICE, log entry 85). -/
def State.portRestart (s : State) (p : Nat) : State :=
  if s.portEn p then
    let s1 := if (List.range (alignLanes (s.portMode p))).any fun l => (s.alignOf p l).locked
      then s.satP F.LNE_PORT_STATUS_RESTARTS 1 p else s
    s1.portStart p
  else s

/-- A new LNE_PORT_CFG value is legal: MODE of an enabled port stays, and the slice's mix with it is legal (R56, R78). -/
def State.portCfgOk (s : State) (p : Nat) (v : W64) : Bool :=
  let m := F.LNE_PORT_CFG_MODE.of v
  (!s.pfb F.LNE_PORT_CFG_EN p || m == s.portMode p) &&
  legalMix fun l => if l = p % 16 then m else s.f F.LNE_PORT_CFG_MODE (p / 16) l

/-- The lane map is a permutation of 0 to 15 (R57). -/
def lanePermutation (v : W64) : Bool :=
  (List.range 16).all fun n => (List.range 16).any fun l => bits v.toNat (4 * l + 3) (4 * l) == n

/-- Every port of a slice is disabled. -/
def State.sliceDisabled (s : State) (sl : Nat) : Bool := (List.range 16).all fun p => !s.fb F.LNE_PORT_CFG_EN sl p

/-! ### Per-second latch (R74) -/

/-- What the PCS and its FEC have decoded on an enabled port since the last whole second (R59, R74, Table 3-12). -/
def State.pcsCount (s : State) (c : PcsCounts) : State :=
  let p := c.port.toNat
  if s.portEn p then
    let s1 := (((s.live p ctrCw c.total).live p ctrCwCorr c.corrected).live p ctrCwUncorr c.uncorrectable).live p ctrFecSym
      c.symbols
    if s.portOtn p then s1 else s1.live p ctrBlkErr c.blocks
  else s

/-- The degrade rule for one counter: after `secs` consecutive seconds at or above the threshold the defect is declared,
after as many below half of it the defect clears; a threshold of zero disables it. -/
def State.degrade (s : State) (p kind d count thr16 secs : Nat) : State :=
  let k := p * 4 + kind
  if thr16 = 0 then
    ({ s with lne := { s.lne with degHi := merase s.lne.degHi k, degLo := merase s.lne.degLo k } }).setRaw p d false
  else
    let hi := if 16 * thr16 ≤ count then mgetD s.lne.degHi k 0 + 1 else 0
    let lo := if count < 8 * thr16 then mgetD s.lne.degLo k 0 + 1 else 0
    let s1 := { s with lne := { s.lne with degHi := msetD s.lne.degHi k 0 hi, degLo := msetD s.lne.degLo k 0 lo } }
    if secs ≤ hi then s1.setRaw p d true else if secs ≤ lo then s1.setRaw p d false else s1

/-- The degrade defects of a port at the whole second. -/
def State.degrades (s : State) (live : SMap Nat) (p : Nat) : State :=
  if s.portEn p then
    let c := fun k => mgetD live (p * 32 + k) 0
    let fs := s.pf F.LNE_FEC_DEG_DEG_SEC p
    let s1 := s.degrade p 0 6 (c ctrFecSym) (s.pf F.LNE_FEC_DEG_SET_THR p) (if fs = 0 then 3 else fs)
    if s.portOtn p then
      let os := s.pf F.LNE_OTN_CFG_DEG_SEC p
      let secs := if os = 0 then 7 else os
      let t := s.pf F.LNE_OTN_CFG_DEG_THR p
      (s1.degrade p 1 19 (c ctrSmBip) t secs).degrade p 2 20 (c ctrPmBip) t secs
    else s1
  else s

/-- The latch of all 128 ports (R74): counters move to the latched bank, DEFECT_SEC starts from the defects still
reported, LNE_LATCH_SEQ advances, LNE_LATCH is raised, and the degrade defects are decided. -/
def State.lneLatch (s : State) : State :=
  let live := s.lne.live
  let lat := s.regs.filter fun e => !(0x42800 ≤ e.1 && e.1 < 0x60000 && 0x2800 ≤ (e.1 - 0x40000) % 0x4000
    && (e.1 - 0x40000) % 0x4000 < 0x3000)
  let s1 := live.foldl (fun t kv => t.wr .LNE_CNT (kv.1 / 512) (kv.1 / 32 % 16) (kv.1 % 32) (BitVec.ofNat 64 kv.2))
    { s with regs := lat }
  let again := (List.range 128).foldl (fun (m : SMap Nat) p =>
    let r := (s.rd .LNE_DEFECT_RPT (p / 16) (p % 16) 0).toNat
    if r = 0 then m else mset m (p * 32 + ctrDefect) r) []
  let s2 := { s1 with lne := { s1.lne with live := again } }
  let s3 := (s2.setF F.LNE_LATCH_SEQ_SEQ (s2.f F.LNE_LATCH_SEQ_SEQ + 1)).raise 256
  (List.range 128).foldl (fun t p => t.degrades live p) s3

/-! ### Lane tests (R77) -/

/-- The pattern a lane's test generator sends: GEN_EN is set, and the lane belongs to no enabled port (R77). -/
def State.laneGen (s : State) (sl l : Nat) : Option Nat :=
  if s.fb F.LNE_LANE_TEST_GEN_EN sl l && !s.laneInUse sl l then
    some (if s.f F.LNE_LANE_TEST_PATTERN sl l = 3 then 1 else s.f F.LNE_LANE_TEST_PATTERN sl l)
  else none

/-- Lanes of a slice whose test generator has started, stopped or changed its pattern since state `was` (R77). -/
def State.laneGenChange (s was : State) (sl : Nat) : State :=
  (List.range 16).foldl (fun (t : State) l =>
    if s.laneGen sl l = was.laneGen sl l then t else t.emit (.lanePattern (16 * sl + l) (s.laneGen sl l))) s

/-- Meaning of LANE_TEST_CHECK: with CHK_EN on a lane of no enabled port, lock and bit errors are recorded. While the checker
does not run, CHK_LOCK keeps its last value (DESIGN CHOICE, log entry 106). -/
def execLaneTestCheck (lane : BitVec 7) (locked : Bool) (errors : Nat) (s : State) : Ans :=
  s.onCore fun s =>
    let sl := lane.toNat / 16
    let l := lane.toNat % 16
    if s.fb F.LNE_LANE_TEST_CHK_EN sl l && !s.laneInUse sl l then
      let s1 := s.setF F.LNE_LANE_TEST_CHK_LOCK (b2n locked) sl l
      if locked then s1.sat F.LNE_LANE_TEST_ERR errors sl l else s1
    else s

/-! ### Two-step timestamps (R50, R51) -/

/-- A transmit timestamp is recorded, or the FIFO of 64 is full and TS_OVF sets. -/
def State.recordStamp (s : State) (p : Nat) (t : TxStamp) : State :=
  let q := mgetD s.lne.txTs p []
  if 64 ≤ q.length then s.setF F.TIM_STATUS_TS_OVF 1
  else ({ s with lne := { s.lne with txTs := mset s.lne.txTs p (q ++ [t]) } }).raise 262

/-- A read of the low word of LNE_TX_TS: the oldest entry leaves and latches, or zero latches (R51). -/
def State.txTsRead (s : State) (p : Nat) : W32 × State :=
  let put := fun (t : State) (ws : List Nat) =>
    (List.range 3).foldl (fun t k => t.wr .LNE_TX_TS (p / 16) (p % 16) (k + 1) (BitVec.ofNat 64 (ws.getD k 0))) t
  match mgetD s.lne.txTs p [] with
  | [] => (0, put s [0, 0, 0])
  | e :: rest =>
    let s1 := { s with lne := { s.lne with txTs := msetD s.lne.txTs p [] rest } }
    (BitVec.ofNat 32 (2 ^ 31 + (rest.length + 1) * 2 ^ 16 + e.tag % 2 ^ 16),
     put s1 [e.ns, e.sec % 2 ^ 32, e.sec / 2 ^ 32])

/-! ### GFP-F (R61) -/

/-- The header checksum of G.7041: CRC-16 with polynomial x^16 + x^12 + x^5 + 1, most significant bit first. -/
def hec (b : List Byte) : Nat :=
  b.foldl (fun c x => (List.range 8).foldl (fun r _ =>
    if 2 ^ 15 ≤ r then (2 * r % 2 ^ 16) ^^^ 0x1021 else 2 * r) (c ^^^ (x.toNat * 256))) 0

/-- One byte through the self-synchronous scrambler x^43 + 1, most significant bit first. -/
def scramByte (st : BitVec 43) (b : Byte) : Byte × BitVec 43 :=
  (List.range 8).foldl (fun (a : Byte × BitVec 43) k =>
    let o := b.getLsbD (7 - k) != a.2.getLsbD 42
    (a.1 <<< 1 ||| (BitVec.ofBool o).setWidth 8, a.2 <<< 1 ||| (BitVec.ofBool o).setWidth 43)) (0, st)

/-- Bytes through that scrambler. -/
def scramBytes (st : BitVec 43) (l : List Byte) : List Byte × BitVec 43 :=
  l.foldl (fun (a : List Byte × BitVec 43) b => let x := scramByte a.2 b; (a.1 ++ [x.1], x.2)) ([], st)

/-- A client frame with its FCS in a GFP-F frame: core header, payload header of a client data frame with UPI 0x01, null
extension header and PFI 0, and the scrambled payload area (Table 3-5, G.7041). -/
def gfpFrame (st : BitVec 43) (frame : List Byte) : List Byte × BitVec 43 :=
  let area := [0, 1] ++ beBytes 2 (hec [0, 1]) ++ frame
  let pli := beBytes 2 area.length
  let x := scramBytes st area
  (beBytes 4 (beNat (pli ++ beBytes 2 (hec pli)) ^^^ 0xB6AB31E0) ++ x.1, x.2)

/-- A frame as a port puts it on the line: an OTN port in a GFP-F frame, whose scrambler starts from a state that no rule
gives (log entry 107). -/
def State.onLine (s : State) (p : Nat) (frame : List Byte) : List Byte × State :=
  if s.portOtn p then
    let x := gfpFrame (mgetD s.lne.scram p (Config.gfpScrambler p)) frame
    (x.1, { s with lne := { s.lne with scram := mset s.lne.scram p x.2 } })
  else (frame, s)

/-! ### Receive checks (R60) -/

/-- The bit-serial CRC-32 of IEEE 802.3 over bytes, least significant bit first, from register value c. -/
def crc32Byte (c : Nat) (b : Nat) : Nat :=
  (List.range 8).foldl (fun r _ => if r % 2 = 1 then (r / 2) ^^^ 0xEDB88320 else r / 2) (c ^^^ b)

/-- The frame check sequence of IEEE 802.3: the 4 bytes that follow the frame. -/
def fcs (frame : List Byte) : List Byte :=
  leBytes 4 ((frame.foldl (fun c b => crc32Byte c b.toNat) 0xFFFFFFFF) ^^^ 0xFFFFFFFF)

/-- The effective maximum frame of a port (R78). -/
def State.maxFrame (s : State) (p : Nat) : Nat :=
  let m := s.pf F.LNE_PORT_CTRL_MAX_FRAME p
  let m1 := if m < 0x40 ∨ 0x4000 < m then 0x4000 else m
  Nat.min m1 (s.f F.BUF_CTRL_MAX_FRAME)

/-- The first row of Table 3-4 a frame meets: its reason code and its counter. -/
def State.rxCheck (s : State) (p : Nat) (frame : List Byte) (cut : Bool) (g : GfpInfo) : Option (Nat × Nat) :=
  let n := frame.length
  if cut then some (0x005, ctrTrunc)
  else if n < 64 then some (0x002, ctrRunt)
  else if s.maxFrame p < n then some (0x003, ctrOversize)
  else if s.portOtn p && g.upi != 1 then some (0x007, ctrUpi)
  else if s.portOtn p && g.pfcsBad then some (0x006, ctrPfcs)
  else if fcs (frame.take (n - 4)) != frame.drop (n - 4) then some (0x004, ctrFcs)
  else none

end Sys2Proof.Machine
end

