-- ==== Sys2Proof/Machine/Notice.lean ====
section
/-! DEFINITION. Completion queues and the notices of the resident services (R358, R360, R367). -/
namespace Sys2Proof.Machine

/-- Entries of a completion queue that the host has not consumed. -/
def State.cqUsed (s : State) (c : Nat) : Nat :=
  (s.f F.HST_CQ_PI_INDEX c + 2 ^ 32 - s.f F.HST_CQ_CI_INDEX c) % 2 ^ 32

/-- Entries promised to commands in execution on work queues bound to a completion queue. -/
def State.cqHeld (s : State) (c : Nat) : Nat :=
  (s.hst.wq.filter fun kv => kv.2.exec.isSome && s.f F.HST_WQ_CFG_CQ kv.1 == c).length

/-- A completion queue is enabled and has room for n more entries. -/
def State.cqRoom (s : State) (c n : Nat) : Bool :=
  s.fb F.HST_CQ_CFG_EN c && decide (s.cqUsed c + s.cqHeld c + n ≤ 2 ^ s.f F.HST_CQ_CFG_SIZE c)

/-- Write one entry of four words to a completion queue and advance its PI; its vector fires with ALL or the entry's
INTR (R360). -/
def State.cqPost (s : State) (c : Nat) (w : List Nat) (intr : Bool) : State :=
  let pi := s.f F.HST_CQ_PI_INDEX c
  let a := s.f F.HST_CQ_ADDR_ADDR c * 4096 + pi % 2 ^ s.f F.HST_CQ_CFG_SIZE c * 32
  let s1 := (s.emit (.hostWrite a (w.flatMap (leBytes 8)))).setF F.HST_CQ_PI_INDEX ((pi + 1) % 2 ^ 32) c
  if s1.fb F.HST_CQ_CFG_ALL c || intr then s1.trigger (s1.f F.HST_CQ_CFG_VECTOR c) else s1

/-- A notice of the resident services (R367): DETAIL, RESULT and word 3, and the RESULT and word 3 of an extension entry.
Without room for all of it the notice is discarded and NOTICE_LOST sets. -/
def State.notify (s : State) (detail result w3 : Nat) (ext : Option (Nat × Nat)) : State :=
  if !s.fb F.HST_CTRL_NOTICE_EN then s
  else
    let c := s.f F.HST_CTRL_NOTICE_CQ
    if !s.cqRoom c (if ext.isSome then 2 else 1) then s.setF F.HST_STATUS_NOTICE_LOST 1
    else
      let s1 := s.cqPost c [0xF0 * 2 ^ 32, result, detail, w3] false
      match ext with
      | some (r, w) => s1.cqPost c [0xF1 * 2 ^ 32, r, detail % 256, w] false
      | none => s1

/-- The DETAIL word of a learning notice (Table 15-15). -/
def learnDetail (kind table store : Nat) (cam ext : Bool) (idx : Nat) : Nat :=
  kind + table * 2 ^ 8 + store * 2 ^ 12 + b2n cam * 2 ^ 13 + b2n ext * 2 ^ 14 +
    (if cam then idx * 2 ^ 24 else idx % 4 * 2 ^ 16 + idx / 4 * 2 ^ 24)

/-- A BFD notice (0x10). -/
def State.bfdNotice (s : State) (id state diag : Nat) : State :=
  s.notify 0x10 id (state + diag * 2 ^ 8) none

/-- An MKA notice (0x20 secured, 0x21 unsecured). -/
def State.mkaNotice (s : State) (secured : Bool) (port : Nat) : State :=
  s.notify (if secured then 0x20 else 0x21) port 0 none

/-- A placement refusal (0x30). -/
def State.placeNotice (s : State) (status table band : Nat) : State :=
  s.notify (0x30 + status * 2 ^ 8) table band none

end Sys2Proof.Machine
end

