-- ==== Sys2Proof/Machine/Galley.lean ====
section
/-! DEFINITION. Galleys: the time gates of the line ports (R268 to R271). Times are network time in ns. -/
namespace Sys2Proof.Machine

/-- Nanoseconds of a whole second. -/
def nsPerSec : Nat := 1000000000

/-- The reading of the time base in ns since second 0: a sum that has passed a whole second reads as carried. -/
def TimeBase.total (t : TimeBase) : Nat := t.sec * nsPerSec + t.ns

/-- The Galley of a line port. -/
def State.galley (s : State) (n : Nat) : Galley := mgetD s.que.galley n {}

/-- Store a line port's Galley. -/
def State.setGalley (s : State) (n : Nat) (g : Galley) : State := { s with que := { s.que with galley := mset s.que.galley n g } }

/-- The bank in use. -/
def Galley.act (g : Galley) : GalleyBank := if g.active then g.b else g.a
/-- The bank that host software writes. -/
def Galley.idle (g : Galley) : GalleyBank := if g.active then g.a else g.b
/-- Replace the bank that host software writes. -/
def Galley.setIdle (g : Galley) (x : GalleyBank) : Galley := if g.active then { g with a := x } else { g with b := x }
/-- Replace the bank in use. -/
def Galley.setAct (g : Galley) (x : GalleyBank) : Galley := if g.active then { g with b := x } else { g with a := x }

/-- The inactive bank with the registers' BASE, CYCLE_NS and LENGTH. -/
def State.idleBank (s : State) (n : Nat) : GalleyBank :=
  { (s.galley n).idle with sec := s.f F.SHP_GALLEY_BASE_SEC_SEC n, ns := s.f F.SHP_GALLEY_BASE_NS_NS n
                           cycle := s.f F.SHP_GALLEY_CYCLE_CYCLE_NS n, len := s.f F.SHP_GALLEY_LEN_LENGTH n }

/-- A bank is valid (R270). -/
def GalleyBank.valid (x : GalleyBank) : Bool :=
  decide (1 ≤ x.len) && decide (x.len ≤ 1024) && decide (1024 ≤ x.cycle) &&
    (List.range x.len).all fun i => x.written.contains i

/-- The first aligned start of a bank not earlier than `t`: BASE plus a whole number of cycles, before or after BASE, so
that a gap never exceeds one cycle (R269, R270). -/
def GalleyBank.firstStart (x : GalleyBank) (t : Nat) : Nat :=
  let b := x.sec * nsPerSec + x.ns
  if b < t then b + (t - b + x.cycle - 1) / x.cycle * x.cycle else b - (b - t) / x.cycle * x.cycle

/-- Gates and interval of entry i. -/
def GalleyBank.entry (x : GalleyBank) (i : Nat) : Nat × Nat :=
  let e := mgetD x.entries i 0
  (bits e 31 24, bits e 23 0)

/-- The intervals of one cycle with their gates: cut at the cycle's end, the last entry holding until it (R269). -/
def GalleyBank.spans (x : GalleyBank) : Nat → Nat → Nat → List (Nat × Nat)
  | 0, _, _ => []
  | k + 1, i, left =>
    if left = 0 then []
    else
      let e := x.entry i
      let d := if i + 1 < x.len then Nat.min e.2 left else left
      (e.1, d) :: x.spans k (i + 1) (left - d)

/-- One cycle of a bank. -/
def GalleyBank.plan (x : GalleyBank) : List (Nat × Nat) := x.spans x.len 0 x.cycle

/-- The time from the start of a cycle to the end of entry i, which the cycle's end may cut. -/
def GalleyBank.endOf (x : GalleyBank) (i : Nat) : Nat := (x.plan.take (i + 1)).foldl (fun a e => a + e.2) 0

/-- A plan from an offset on. -/
def dropTime : List (Nat × Nat) → Nat → List (Nat × Nat)
  | [], _ => []
  | (g, d) :: t, o => if o < d then (g, d - o) :: t else dropTime t (o - d)

/-- How long gate q stays open from the start of a plan, and whether it does to its end. -/
def openRun (q : Nat) : List (Nat × Nat) → Nat × Bool
  | [] => (0, true)
  | (g, d) :: t => if bit g q then (let r := openRun q t; (d + r.1, r.2)) else (0, false)

/-- The longest open run of gate q in a plan. -/
def longRun (q : Nat) : Nat → Nat → List (Nat × Nat) → Nat
  | cur, best, [] => Nat.max cur best
  | cur, best, (g, d) :: t => if bit g q then longRun q (cur + d) best t else longRun q 0 (Nat.max cur best) t

/-- The longest open span of gate q in a bank; none where it never closes. -/
def GalleyBank.longest (x : GalleyBank) (q : Nat) : Option Nat :=
  let p := x.plan
  if p.all fun e => bit e.1 q then none else some (longRun q 0 0 (p ++ p))

/-- How long gate q stays open from time `t`; none where it never closes. A pending start closes it at the latest at the end
of the cycle in progress, or at the start that a gap waits for. -/
def Galley.openFor (g : Galley) (q t gap : Nat) : Option Nat :=
  if !g.running then
    if bit gap q then g.start.map fun x => x.2 - t else some 0
  else
    let p := g.act.plan
    let r := openRun q (dropTime p (t - g.cycle))
    if !r.2 then some r.1
    else if g.start.isSome then some r.1
    else
      let w := openRun q p
      if w.2 then none else some (r.1 + w.1)

/-- A time of `num / rate` ns fits in an open span, which counts as closing 16 ns early (R271). -/
def fitsSpan (span : Option Nat) (num rate : Nat) : Bool :=
  match span with
  | none => true
  | some d => decide (16 ≤ d) && decide (num ≤ (d - 16) * rate)

/-- Show the gates, the entry and the gap of a Galley. -/
def State.galleyShow (s : State) (n gates entry : Nat) (gap : Bool) : State :=
  ((s.setF F.SHP_GALLEY_STATUS_GATES gates n).setF F.SHP_GALLEY_STATUS_ENTRY entry n).setF F.SHP_GALLEY_STATUS_IN_GAP
    (b2n gap) n

/-- A Galley waits for a start with GAP_GATES holding. -/
def State.galleyGap (s : State) (n : Nat) : State := s.galleyShow n (s.f F.SHP_GALLEY_CTRL_GAP_GATES n) 0 true

/-- The first aligned start of a bank that has entries. -/
def GalleyBank.startAt (x : GalleyBank) (which : Bool) (t : Nat) : Option (Bool × Nat) :=
  if x.cycle = 0 ∨ x.len = 0 then none else some (which, x.firstStart t)

/-- The effect of EN changing to 1: the active bank's first aligned start from now is awaited, GAP_GATES holding (R270). A
switch that is pending stays. -/
def State.galleyEnable (s : State) (n : Nat) : State :=
  let g := s.galley n
  let st := match g.start with
    | some x => some x
    | none => g.act.startAt g.active s.tb.total
  (s.setGalley n { g with running := false, start := st, entry := 0 }).galleyGap n

/-- The effect of EN changing to 0: all gates open (R270). -/
def State.galleyDisable (s : State) (n : Nat) : State :=
  let g := s.galley n
  let st := match g.start with
    | some x => if x.1 = g.active then none else some x
    | none => none
  (s.setGalley n { g with running := false, start := st, entry := 0 }).galleyShow n 0xFF 0 false

/-- The time at which a running Galley's cycle ends. -/
def Galley.cycleEnd (g : Galley) : Nat := g.cycle + g.act.cycle

/-- The effect of SWITCH: refused while one is pending or for an invalid bank; else the inactive bank's start is scheduled
(R270). -/
def State.galleySwitch (s : State) (n : Nat) : State :=
  let g := s.galley n
  let x := s.idleBank n
  if s.fb F.SHP_GALLEY_STATUS_SWITCH_PENDING n || !x.valid then s.cfgErr F.SHP_STATUS_CFG_ERR 481
  else
    let ref := if g.running then g.cycleEnd else s.tb.total
    (s.setGalley n { g with start := some (!g.active, x.firstStart ref) }).setF F.SHP_GALLEY_STATUS_SWITCH_PENDING 1 n

/-- The inactive bank becomes the active one; the registers show the other bank from then on. -/
def State.galleySwap (s : State) (n : Nat) : State :=
  let x := s.idleBank n
  let g := (s.galley n).setIdle x
  let old := g.act
  let g1 := { g.setAct { old with written := [] } with active := !g.active }
  let s1 := ((((s.setGalley n g1).setF F.SHP_GALLEY_BASE_SEC_SEC old.sec n).setF F.SHP_GALLEY_BASE_NS_NS old.ns n).setF
    F.SHP_GALLEY_CYCLE_CYCLE_NS old.cycle n).setF F.SHP_GALLEY_LEN_LENGTH old.len n
  ((((s1.setF F.SHP_GALLEY_CTRL_ACTIVE (b2n g1.active) n).setF F.SHP_GALLEY_STATUS_SWITCH_PENDING 0 n).setF
    F.SHP_STATUS_SWITCHED 1)).raise 482

/-- A cycle starts at `t`: entry 0's gates apply, and UNALIGNED follows LOCK. -/
def State.galleyBegin (s : State) (n t : Nat) : State :=
  let g := s.galley n
  let s1 := s.setGalley n { g with running := true, start := none, cycle := t, entry := 0 }
  (s1.galleyShow n (g.act.entry 0).1 0 false).setF F.SHP_GALLEY_STATUS_UNALIGNED (b2n (!s.fb F.TIM_STATUS_LOCK)) n

/-- Meaning of GALLEY_CYCLE_START: an awaited aligned start has come, or the next cycle of the active bank. -/
def execGalleyCycleStart (port : BitVec 7) (s : State) : Ans :=
  s.onCore fun s =>
    let n := port.toNat
    let g := s.galley n
    let now := s.tb.total
    match g.start with
    | some (which, t) =>
      if now < t then s
      else
        let s1 := if which = g.active then s else s.galleySwap n
        if s1.fb F.SHP_GALLEY_CTRL_EN n then s1.galleyBegin n t
        else s1.setGalley n { s1.galley n with start := none }
    | none => if g.running && decide (g.cycleEnd ≤ now) then s.galleyBegin n g.cycleEnd else s

/-- Meaning of GALLEY_INTERVAL_END: the entry in progress ends and the next one's gates apply; at the end of a cycle with a
start pending the gap begins. -/
def execGalleyIntervalEnd (port : BitVec 7) (s : State) : Ans :=
  s.onCore fun s =>
    let n := port.toNat
    let g := s.galley n
    if g.running && decide (g.cycle + g.act.endOf g.entry ≤ s.tb.total) then
      if g.entry + 1 < g.act.plan.length then
        (s.setGalley n { g with entry := g.entry + 1 }).galleyShow n (g.act.entry (g.entry + 1)).1 (g.entry + 1) false
      else if g.start.isSome then (s.setGalley n { g with running := false, entry := 0 }).galleyGap n
      else s
    else s

/-- A Galley restarts at the first aligned start after its cycle in progress, whose end a time step of `shift` ns moves
(R46, R270); a pending switch keeps its bank. -/
def State.galleyRestart (s : State) (n : Nat) (shift : Int) : State :=
  let g := s.galley n
  if !s.fb F.SHP_GALLEY_CTRL_EN n then s
  else
    let g1 := { g with cycle := ((g.cycle : Int) + shift).toNat }
    let which := match g.start with | some x => x.1 | none => g.active
    let bank := if which = g.active then g.act else s.idleBank n
    let ref := if g.running then g1.cycleEnd else s.tb.total
    s.setGalley n { g1 with start := bank.startAt which ref }

/-- Every Galley restarts (R270). -/
def State.galleysRestart (s : State) (shift : Int) : State :=
  if s.core then s.que.galley.foldl (fun (u : State) kv => u.galleyRestart kv.1 shift) s else s

/-- LOCK has set: running Galleys restart, and those that do not run are no longer unaligned (R271, Table 11-9). -/
def State.galleysAlign (s : State) : State :=
  if s.core then
    (List.range 128).foldl (fun (u : State) n =>
      if u.fb F.SHP_GALLEY_CTRL_EN n then u else u.setF F.SHP_GALLEY_STATUS_UNALIGNED 0 n) (s.galleysRestart 0)
  else s

/-- LOCK has cleared: every Galley is unaligned (R271). -/
def State.galleysUnalign (s : State) : State :=
  if s.core then (List.range 128).foldl (fun (u : State) n => u.setF F.SHP_GALLEY_STATUS_UNALIGNED 1 n) s else s

end Sys2Proof.Machine
end

