-- ==== Sys2Proof/Machine/Time.lean ====
section
/-! DEFINITION. Picas and network time (chapter 2). -/
namespace Sys2Proof.Machine

/-- One nclk cycle (R43): the increment, in 2^-32 ns, is added to nanoseconds and fraction. -/
def TimeBase.tick (t : TimeBase) (n : Nat) : TimeBase :=
  let sum := t.frac + n * t.incr
  { t with ns := t.ns + sum / 2 ^ 32, frac := sum % 2 ^ 32 }

/-- FD starts a pica: the number advances (R29), the copies of QD and TD advance with the local picas of those dies, which
begin within one cycle of FD's (R30), and the time base runs the 8 nclk cycles of 16 ns (log entry 5). -/
def State.nextPica (s : State) : State :=
  { s with pica := { s.pica with num := s.pica.num + 1, qd := s.pica.qd + 1
                                 td := s.pica.td + 1 }
           tb := s.tb.tick 8 }

/-- The slips of the last 2^26 picas with the one at pica p added (R31). -/
def recentSlips (l : List Nat) (p : Nat) : List Nat := (l ++ [p]).filter fun q => p < q + 2 ^ 26

/-- The number nearest to a local copy whose low byte is the mark's. R31 has the copy loaded from the mark, which carries
eight bits; the upper bits are the model's choice (DESIGN CHOICE, log entry 82). -/
def loadMark (copy low : Nat) : Nat :=
  let up := (low + 256 - copy % 256) % 256
  if up ≤ 128 ∨ copy + up < 256 then copy + up else copy + up - 256

/-- A received mark whose low byte disagrees with the die's copy: the copy is loaded from the mark, one slip is counted
and PICA_SLIP is raised; more than 4 slips in 2^26 picas are fatal (R31, R302). -/
def State.markSlip (s : State) (die : MarkDie) (copy low : Nat) : State :=
  let s1 := (s.sat F.TIM_STATUS_SLIPS 1).raise 8
  match die with
  | .qd =>
    let l := recentSlips s.pica.slipsQd s.pica.num
    let s2 := { s1 with pica := { s1.pica with qd := loadMark copy low, slipsQd := l } }
    if 4 < l.length then s2.fatal codeMarkQD else s2
  | .td =>
    let l := recentSlips s.pica.slipsTd s.pica.num
    let s2 := { s1 with pica := { s1.pica with td := loadMark copy low, slipsTd := l } }
    if 4 < l.length then s2.fatal codeMarkTD else s2

/-- A pica mark arrives at QD or TD and is compared with the die's own copy, the fixed crossing delay subtracted: the mark of
the pica that runs agrees (R30, R31, log entry 5). -/
def State.mark (s : State) (die : MarkDie) (low : Nat) : State :=
  match die with
  | .qd => if s.pica.qd % 256 = low then s else s.markSlip .qd s.pica.qd low
  | .td => if s.pica.td % 256 = low then s else s.markSlip .td s.pica.td low

/-- Meaning of PICA_MARK. TD takes no mark while tclk stops (Table 2-3). -/
def execPicaMark (die : MarkDie) (low : Byte) (s : State) : Ans :=
  match die with
  | .qd => s.onCore fun s => s.mark .qd low.toNat
  | .td => s.onCore fun s => s.mark .td low.toNat

/-- LOCK changes: TIME_LOCK or TIME_UNLOCK is raised (R45). -/
def State.setLock (s : State) (b : Bool) : State :=
  if s.fb F.TIM_STATUS_LOCK = b then s
  else
    let s1 := (s.setF F.TIM_STATUS_LOCK (b2n b)).raise (if b then 4 else 5)
    if b then s1.galleysAlign else s1.galleysUnalign

/-- PPS mode. -/
def State.ppsMode (s : State) : Bool := s.fb F.TIM_CTRL_SRC

/-- The count of consecutive good or bad edges starts again. -/
def State.newEdges (s : State) : State := { s with tb := { s.tb with good := 0, bad := 0 } }

/-- In host mode LOCK follows HOST_LOCK (R45). -/
def State.hostLock (s : State) : State :=
  if s.ppsMode then s else s.setLock (s.fb F.TIM_CTRL_HOST_LOCK)

/-- The seconds register as the time base reads it. -/
def TimeBase.secNow (t : TimeBase) : Nat := (t.sec + t.ns / nsPerSec) % 2 ^ 48
/-- The nanoseconds register as the time base reads it. -/
def TimeBase.nsNow (t : TimeBase) : Nat := t.ns % nsPerSec

/-- The whole second: the carry, a pending SEC, a pending increment (R43, R53). Where the sum has not reached
1,000,000,000 the command itself marks the second (log entry 5). -/
def TimeBase.second (t : TimeBase) : TimeBase :=
  let c := t.ns / nsPerSec
  let sec := if c = 0 then t.sec + 1 else t.sec + c
  { t with
    sec := (match t.pendSec with | some v => v | none => sec) % 2 ^ 48
    ns := if c = 0 then 0 else t.ns % nsPerSec
    frac := if c = 0 then 0 else t.frac
    incr := match t.pendIncr with | some v => v | none => t.incr
    pendIncr := none
    pendSec := none
    todDue := true
    up := t.up + 1 }

/-- PPS_OUT's high time in 0.5 ms units: values outside 0x002 to 0x3E8 act as 0x0C8 (R47, TIM_CTRL). -/
def State.ppsWidth (s : State) : Nat :=
  let w := s.f F.TIM_CTRL_PPS_WIDTH
  if 2 ≤ w ∧ w ≤ 0x3E8 then w else 0xC8

/-- PPS_OUT rises at a whole second, to stay high for the width in force (R47). -/
def State.ppsRise (s : State) : State :=
  { s with tb := { s.tb with ppsOut := true, ppsHigh := s.ppsWidth } }.emit (.pin .ppsOut true)

/-- Meaning of PPS_OUT_FALL: the high time of the last rise has passed (R47). -/
def execPpsOutFall (s : State) : Ans :=
  s.onMgmt fun s =>
    if s.tb.ppsOut then ({ s with tb := { s.tb with ppsOut := false, ppsHigh := 0 } }).emit (.pin .ppsOut false) else s

/-- The phase error in ns of the time base against second `sec` (R44). -/
def TimeBase.phaseError (t : TimeBase) (sec : Nat) : Nat :=
  let a := t.total
  let b := sec * nsPerSec
  if a < b then b - a else a - b

/-- A PPS_IN edge in PPS mode (R44, R45): the error against the second the last valid ToD message named is measured,
LOCK follows 4 good or 2 bad consecutive edges, and a message not yet used loads the seconds. Without any valid message
there is nothing to measure against (log entry 6). A LOCK_NS of 0, outside the range TIM_CTRL gives, is a threshold of 0 ns
(DESIGN CHOICE, log entry 83). -/
def State.ppsEdge (s : State) : State :=
  let s := s.setF F.TIM_STATUS_PPS_SEEN 1
  match s.tb.tod with
  | none => s
  | some sec =>
    let ok := decide (s.tb.phaseError sec ≤ s.f F.TIM_CTRL_LOCK_NS)
    let tb := s.tb
    let tb1 : TimeBase := if ok then { tb with good := tb.good + 1, bad := 0 } else { tb with good := 0, bad := tb.bad + 1 }
    let tb2 : TimeBase := if tb.todFresh then { tb1 with sec := sec % 2 ^ 48, ns := tb.nsNow, todFresh := false } else tb1
    let s0 := { s with tb := tb2 }
    let s1 := if tb2.total = tb.total then s0 else s0.galleysRestart ((tb2.total : Int) - tb.total)
    if 4 ≤ tb1.good then s1.setLock true else if 2 ≤ tb1.bad then s1.setLock false else s1

/-- Meaning of PPS_EDGE: the edge measures and disciplines in PPS mode; PPS_SEEN sets in either mode. -/
def execPpsEdge (s : State) : Ans :=
  s.onMgmt fun s => if s.ppsMode then s.ppsEdge else s.setF F.TIM_STATUS_PPS_SEEN 1

/-- Meaning of PPS_TIMEOUT: 1.5 s have passed without an edge; PPS_SEEN clears, PPS_MISSING is raised, and in PPS mode LOCK
clears (R45). -/
def execPpsTimeout (s : State) : Ans :=
  s.onMgmt fun s =>
    let s1 := s.setF F.TIM_STATUS_PPS_SEEN 0
    (if s1.ppsMode then s1.newEdges.setLock false else s1).raise 6

/-- A ToD message is valid when it has the layout of Table 2-8, its sum holds, and it arrives between 100 ms and 900 ms
after a PPS edge (R44). -/
def todValid (ms : Nat) (b : List Byte) : Bool :=
  b.length == 10 && slice b 0 2 == [0xA5, 0x5A] && 100 ≤ ms && ms ≤ 900 &&
  ((slice b 2 7).foldl (fun a x => a + x.toNat) 0) % 256 == beNat (slice b 9 1)

/-- Meaning of TOD_MESSAGE (R44, R45): a valid message names the seconds of the next edge, another raises TOD_BAD. -/
def execTodMessage (msSinceEdge : Nat) (bytes : List Byte) (s : State) : Ans :=
  s.onMgmt fun s =>
    if todValid msSinceEdge bytes && s.fb F.TIM_STATUS_PPS_SEEN then
      { s with tb := { s.tb with tod := some (beNat (slice bytes 2 6)), todFresh := true } }
    else s.raise 7

/-- The message of Table 2-8 for the seconds of the next PPS_OUT edge; flag bit 0 follows LOCK (R409). -/
def todMessage (sec : Nat) (lock : Bool) : List Byte :=
  let body := beBytes 6 sec ++ [BitVec.ofNat 8 (b2n lock)]
  [0xA5, 0x5A] ++ body ++ [BitVec.ofNat 8 (body.foldl (fun a x => a + x.toNat) 0 % 256)]

/-- Meaning of TOD_TX_SEND: 500 ms after a PPS_OUT rise the message leaves, once per rise, with the seconds of the next
PPS_OUT edge: a pending SEC write's, which that edge loads, else the next ones (R53, R409). -/
def execTodTxSend (s : State) : Ans :=
  s.onMgmt fun s =>
    if s.tb.todDue then
      ({ s with tb := { s.tb with todDue := false } }).emit
        (.todTx (todMessage ((s.tb.pendSec.getD (s.tb.secNow + 1)) % 2 ^ 48) (s.fb F.TIM_STATUS_LOCK)))
    else s

/-- A TIM_ADJ step at the next nclk edge (R43): the signed step moves the time base; below zero it stays in range by
borrowing from the seconds. -/
def TimeBase.step (t : TimeBase) (v : W32) : TimeBase :=
  let n : Int := (t.total : Int) + v.toInt
  let m := (n.emod (2 ^ 48 * (nsPerSec : Int))).toNat
  { t with sec := m / nsPerSec, ns := m % nsPerSec }

/-- The effect of a TIM_ADJ write: the step, and the Galleys restart (R46, R270). -/
def State.timAdj (s : State) (v : W32) : State :=
  let t := s.tb.step v
  ({ s with tb := t }).galleysRestart ((t.total : Int) - s.tb.total)

/-- The two words a TIM_TOD.NS read latches (R53). -/
def State.todWords (s : State) : W32 × W32 :=
  (BitVec.ofNat 32 (s.tb.secNow % 2 ^ 32), BitVec.ofNat 32 (s.tb.secNow / 2 ^ 32))

end Sys2Proof.Machine
end

