-- ==== Sys2Proof/Machine/Crypto.lean ====
section
/-! DEFINITION. Link and tunnel encryption (chapter 4): the SA table and cache, MACsec and ESP on receive, the ingress
FIFO behind them, key agreement, and the packet numbers of transmit. -/
namespace Sys2Proof.Machine

/-! ### The SA table and its cache (R85 to R88) -/

/-- An SA as the device reads it: the cached copy while one is held (R88). -/
def State.sa (s : State) (i : Nat) : SaEntry :=
  match mget s.cry.cache i with
  | some e => e
  | none => mgetD s.cry.sa i {}

/-- MACsec types, which are always pinned (R88). -/
def SaEntry.macsec (e : SaEntry) : Bool := e.type == 0 || e.type == 1
/-- A pinned SA: valid, and MACsec or with PIN set. -/
def SaEntry.pinned (e : SaEntry) : Bool := e.valid && (e.macsec || e.pin)

/-- TYPE names a transmit SA. -/
def SaEntry.tx (e : SaEntry) : Bool := e.type == 1 || e.type == 3

/-- An entry with every field that does not apply to its type reserved, which reads as zero (R85, Table 4-5). -/
def SaEntry.reserve (e : SaEntry) : SaEntry :=
  let esp := !e.macsec
  let inb := e.type == 2
  { e with
    tunnel := e.tunnel && esp, ipv6 := e.ipv6 && esp
    an := if e.type = 1 then e.an else 0
    id32 := if esp || e.ext then e.id32 else 0
    limit := if inb then 0 else e.limit
    nextValid := e.nextValid && e.tx, nextSa := if e.tx then e.nextSa else 0
    replayWin := if inb then e.replayWin else 0
    salt := if esp then e.salt % 2 ^ 32 else if e.ext then e.salt else 0
    sci := if e.type = 1 then e.sci else 0
    tunDst := if inb then (if e.ipv6 then e.tunDst else e.tunDst % 2 ^ 32) else 0 }

/-- The cached SAs of a set (SA index modulo 2,048), least recently used first. -/
def State.setOf (s : State) (i : Nat) : List Nat := s.cry.lru.filter fun k => k % 2048 == i % 2048

/-- An SA becomes the most recently used one of the cache (R88). -/
def touchSa (l : List Nat) (k : Nat) : List Nat := l.filter (· != k) ++ [k]

/-- A use of a cached SA. -/
def State.saTouch (s : State) (i : Nat) : State :=
  match mget s.cry.cache i with
  | some _ => { s with cry := { s.cry with lru := touchSa s.cry.lru i } }
  | none => s

/-- An entry enters the cache: into a free way of its set, or over the least recently used unpinned one, whose numbers
are written back to HBM (R88). -/
def State.cacheFill (s : State) (i : Nat) (e : SaEntry) : State :=
  let ways := s.setOf i
  let s1 :=
    if ways.contains i || ways.length < 16 then s
    else match ways.find? fun k => !(s.sa k).pinned with
      | none => s
      | some v =>
        ({ s with cry := { s.cry with
            sa := mset s.cry.sa v (s.sa v), cache := merase s.cry.cache v, lru := s.cry.lru.filter (· != v) } }).hbmWritten
          (saLA v) 256
  { s1 with cry := { s1.cry with cache := mset s1.cry.cache i e, lru := touchSa s1.cry.lru i } }

/-- Store new numbers of an SA, which is a use of it: in the cached copy while one is held, else in HBM. -/
def State.saNumbers (s : State) (i : Nat) (e : SaEntry) : State :=
  match mget s.cry.cache i with
  | some _ => { s with cry := { s.cry with cache := mset s.cry.cache i e, lru := touchSa s.cry.lru i } }
  | none => { s with cry := { s.cry with sa := mset s.cry.sa i e } }

/-- What a request for an SA asks of HBM. -/
def saSpan (i : Nat) : List (Nat × Nat) := [(saLA i, 256)]

/-- Write an SA change to HBM and to the SA cache (R86). A poisoned SA stays poisoned until it is installed again, and is not
cached, so that no key of a poisoned entry is used (R235). -/
def State.saWrite (s : State) (i : Nat) (e : SaEntry) : State :=
  let s1 := ({ s with cry := { s.cry with sa := mset s.cry.sa i e } }).wakeSpan (saLA i) 256
  if s1.poisoned (saLA i) 256 && !(mget s1.cry.cache i).isSome then s1 else s1.cacheFill i e

/-- Valid pinned SAs among those the table lists. -/
def State.pinnedCount (s : State) : Nat := (s.cry.sa.filter fun kv => (s.sa kv.1).pinned).length
/-- Valid pinned SAs of one set. -/
def State.pinnedInSet (s : State) (i : Nat) : Nat :=
  (s.cry.sa.filter fun kv => kv.1 % 2048 == i % 2048 && (s.sa kv.1).pinned).length

/-- The pin limits of R88 allow one more pinned SA at index i. -/
def State.pinRoom (s : State) (i : Nat) : Bool := decide (s.pinnedInSet i < 12) && decide (s.pinnedCount < 16384)

/-- Install an SA at a free index (R86 to R88); none where the install is refused. -/
def State.saInstall (s : State) (i : Nat) (e : SaEntry) : Option State :=
  let e1 := { e with valid := true }
  if (s.sa i).valid || 3 < e.type || (e1.pinned && !s.pinRoom i) then none
  else some ((s.unpoison (saLA i) 256).saWrite i e1)

/-- Delete an SA: VALID clears, KEY and SALT become zero (R87). -/
def State.saDelete (s : State) (i : Nat) : State :=
  let e := s.sa i
  s.saWrite i { e with valid := false, key := List.replicate 32 0, salt := 0 }

/-! ### The slice ingress FIFO (R27, R28) -/

/-- Frames and bytes a slice's ingress FIFO holds. -/
def State.fifoOf (s : State) (sl : Nat) : List RxFrame := mgetD s.cry.fifo sl []
def fifoBytes (l : List RxFrame) : Nat := l.foldl (fun a f => a + f.bytes.length) 0

/-- The ingress FIFO can hold one more frame of n bytes (R27). -/
def State.fifoRoom (s : State) (sl n : Nat) : Bool :=
  decide ((s.fifoOf sl).length < 8192) && decide (fifoBytes (s.fifoOf sl) + n ≤ 4 * 1024 * 1024)

/-- A frame enters the ingress FIFO of its slice, or is dropped whole under ING_FIFO_FULL (R27). -/
def State.toFifo (s : State) (f : RxFrame) : State :=
  let sl := f.port / 16
  if s.fifoRoom sl f.bytes.length then
    { s with cry := { s.cry with
        fifo := mset s.cry.fifo sl (s.fifoOf sl ++ [{ f with entered := s.pica.num }]) } }
  else s.drop 0x001 f.bytes.length f.port

/-! ### MACsec on receive (R84, R92, R93, R101) -/

/-- A SecTAG: TCI bits, association number, short length, packet number, and the SCI when carried. -/
structure SecTag where
  v : Bool
  es : Bool
  sc : Bool
  scb : Bool
  e : Bool
  c : Bool
  an : Nat
  sl : Nat
  pn : Nat
  sci : Nat
  len : Nat
  deriving DecidableEq, Repr

/-- The two bytes at an offset, as a number. -/
def be16 (b : List Byte) (off : Nat) : Nat := beNat (slice b off 2)

/-- The SecTAG of a frame whose EtherType is 0x88E5; without an SCI, the source address with port 0x0001 stands in
(R84). -/
def secTag (b : List Byte) : Option SecTag :=
  if be16 b 12 != 0x88E5 then none
  else
    let t := beNat (slice b 14 1)
    let sc := bit t 5
    some { v := bit t 7, es := bit t 6, sc := sc, scb := bit t 4, e := bit t 3, c := bit t 2, an := t % 4,
           sl := beNat (slice b 15 1), pn := beNat (slice b 16 4),
           sci := if sc then beNat (slice b 20 8) else beNat (slice b 6 6) * 65536 + 1,
           len := if sc then 16 else 8 }

/-- A SecTAG that IEEE 802.1AE-2018 calls invalid (log entry 18): version set, SC with ES or SCB, short length of 48 or
more, packet number 0 without XPN, or a frame of `n` bytes that does not fit: with a short length of 0 at least 48 octets of
secure data, else exactly as many as it says, before padding to the least frame (clause 9.12). -/
def SecTag.bad (t : SecTag) (xpn : Bool) (n : Nat) : Bool :=
  t.v || (t.sc && (t.es || t.scb)) || 48 ≤ t.sl || (!xpn && t.pn == 0) ||
  (if t.sl = 0 then decide (n < 12 + t.len + 48 + 16) else n != Nat.max 60 (12 + t.len + t.sl + 16))

/-- The first valid CAM entry of a port and SCI (R84). -/
def State.scFind (s : State) (p sci : Nat) : Option ScEntry :=
  (s.cry.cam.find? fun kv => kv.2.valid && kv.2.port == p && kv.2.sci == sci).map (·.2)

/-- The packet number with XPN: the high half from the lowest acceptable number (R92). -/
def xpnRecover (limit pn : Nat) : Nat :=
  let hi := limit / 2 ^ 32
  let lo := limit % 2 ^ 32
  (if 2 ^ 31 ≤ lo ∧ pn < 2 ^ 31 then hi + 1 else hi) * 2 ^ 32 + pn

/-- The 96-bit nonce of an SA for a packet number: SCI and PN, or with XPN the salt against SSCI and PN. -/
def SaEntry.nonce (e : SaEntry) (sci pn : Nat) : List Byte :=
  if e.ext then beBytes 12 (e.salt ^^^ (e.id32 * 2 ^ 64 + pn)) else beBytes 8 sci ++ beBytes 4 pn

/-- CONF_OFFSET in bytes. -/
def confOffset (v : Nat) : Nat := match v with | 1 => 30 | 2 => 50 | _ => 0

/-- Check and recover the user data of a MACsec frame: none where the ICV fails. -/
def macsecOpen (e : SaEntry) (t : SecTag) (b : List Byte) (pn co : Nat) : Option (List Byte) :=
  let off := 12 + t.len
  let n := if t.sl = 0 then b.length - off - 16 else t.sl
  let body := slice b off n
  let icv := slice b (off + n) 16
  let nonce := e.nonce t.sci pn
  if t.e then (Std.gcmOpen e.key nonce (b.take off ++ body.take co) (body.drop co) icv).map (body.take co ++ ·)
  else (Std.gcmOpen e.key nonce (b.take off ++ body) [] icv).map fun _ => body

/-- A frame without its SecTAG and ICV. -/
def macsecStrip (t : SecTag) (b : List Byte) : List Byte :=
  let off := 12 + t.len
  let n := if t.sl = 0 then b.length - off - 16 else t.sl
  b.take 12 ++ slice b off n

/-- What MACsec on receive decides: deliver the frame, or drop it under a reason, with the SA it selected. -/
inductive MacsecResult where
  | deliver (f : RxFrame)
  | discard (code : Nat) (sa : Option Nat)
  deriving DecidableEq, Repr

/-- A frame with a SecTAG is checked: the SA by its SC and AN, the lowest acceptable number, the ICV (R84, R93, R101). The
state part returned is the SA's new numbers. -/
def State.macsecCheck (s : State) (f : RxFrame) (strict : Bool) (t : SecTag) : MacsecResult × State :=
  let p := f.port
  let b := f.bytes
  let sc := s.scFind p t.sci
  let sai := match sc with
    | some c => if bit c.anValid t.an then some (c.sa.getD t.an 0) else none
    | none => none
  let xpn := match sai with | some i => (s.sa i).ext | none => false
  let plain := { f with bytes := macsecStrip t b, prot := true, valid := false }
  if t.bad xpn b.length then (.discard 0x011 sai, s)
  else match sai with
  | none =>
    if strict then (.discard (if sc.isNone then 0x012 else 0x013) none, s)
    else if t.e then (.discard 0x012 none, s) else (.deliver plain, s)
  | some i =>
    let e := s.sa i
    if !e.valid || e.type != 0 then (.discard 0x013 (some i), s)
    else
      let pn := if e.ext then xpnRecover e.limit t.pn else t.pn
      if s.fb F.CRY_PORT_CFG_REPLAY_EN p && decide (pn < e.limit) then (.discard 0x015 (some i), s)
      else match macsecOpen e t b pn (confOffset (s.f F.CRY_PORT_CFG_CONF_OFFSET p)) with
      | none =>
        if strict || t.e then (.discard 0x014 (some i), s)
        else (.deliver { plain with rxSa := i }, s)
      | some body =>
        let win := Nat.min 1024 (s.f F.CRY_PORT_CFG_REPLAY_WIN p)
        let nx := Nat.max e.nextPn (pn + 1)
        let e1 := { e with nextPn := nx, limit := Nat.max e.limit (nx - win) }
        (.deliver { f with bytes := b.take 12 ++ body, prot := true, valid := true, rxSa := i }, s.saNumbers i e1)

/-- The ICV of a delivered frame has passed. -/
def MacsecResult.passed (r : MacsecResult) : Bool :=
  match r with | .deliver g => g.prot && g.valid | .discard _ _ => false

/-- The frame selects an SA that is not valid, which drops it in every mode (R87). -/
def MacsecResult.noSa (r : MacsecResult) : Bool :=
  match r with | .discard 0x013 (some _) => true | _ => false

/-- MACsec on receive (Table 4-7). In mode Disabled a frame whose ICV does not pass is delivered unchanged, but one that
selects a deleted SA is dropped (R87). -/
def State.macsecRx (s : State) (f : RxFrame) : MacsecResult × State :=
  let mode := s.f F.CRY_PORT_CFG_VALIDATE f.port
  let strict := decide (2 ≤ mode)
  if !s.fb F.CRY_PORT_CFG_MACSEC_EN f.port || be16 f.bytes 12 == 0x888E then (.deliver f, s)
  else
    match secTag f.bytes with
    | none => if strict then (.discard 0x010 none, s) else (.deliver f, s)
    | some t =>
      let r := s.macsecCheck f strict t
      if mode = 0 && !r.1.passed && !r.1.noSa then (.deliver f, s) else r

/-! ### ESP on receive (R83, R94, R102) -/

/-- The offset behind the MAC addresses and up to two VLAN tags, where the EtherType stands. -/
def etherOff (b : List Byte) : Nat :=
  let vlan := fun o => be16 b o == 0x8100 || be16 b o == 0x88A8
  if vlan 12 then (if vlan 16 then 20 else 16) else 12

/-- An ESP packet as R83 finds it: the EtherType's offset, IPv6, fragment, and the offset and end of the ESP part. -/
structure EspSpot where
  et : Nat
  v6 : Bool
  frag : Bool
  off : Nat
  fin : Nat
  dst : Nat
  deriving DecidableEq, Repr

/-- The ESP part of a frame whose headers meet the three conditions of R83. -/
def espFind (b : List Byte) : Option EspSpot :=
  let et := etherOff b
  let ip := et + 2
  if be16 b et == 0x0800 && beNat (slice b ip 1) == 0x45 && beNat (slice b (ip + 9) 1) == 50 then
    some { et := et, v6 := false, frag := be16 b (ip + 6) % 0x4000 != 0, off := ip + 20,
           fin := Nat.min b.length (ip + be16 b (ip + 2)), dst := beNat (slice b (ip + 16) 4) }
  else if be16 b et == 0x86DD && beNat (slice b ip 1) / 16 == 6 && beNat (slice b (ip + 6) 1) == 50 then
    some { et := et, v6 := true, frag := false, off := ip + 40,
           fin := Nat.min b.length (ip + 40 + be16 b (ip + 4)), dst := beNat (slice b (ip + 24) 16) }
  else none

/-- The SA entry serves this ESP packet (Table 4-2). -/
def SaEntry.espMatch (e : SaEntry) (x : EspSpot) (spi : Nat) : Bool :=
  e.type == 2 && e.id32 == spi && e.ipv6 == x.v6 && e.tunDst == x.dst

/-- The effective replay window (Table 4-5). -/
def espWin (w : Nat) : Nat := if w = 0 then 0 else if w < 32 then 32 else if 1024 < w then 1024 else w

/-- The 64-bit sequence number of RFC 4303 from its low half, the highest number T and the window W (R92). -/
def esnInfer (t w seq : Nat) : Nat :=
  let th := t / 2 ^ 32
  let tl := t % 2 ^ 32
  if w ≤ tl + 1 then (if tl + 1 - w ≤ seq then th else th + 1) * 2 ^ 32 + seq
  else (if tl + 1 + 2 ^ 32 - w ≤ seq ∧ 0 < th then th - 1 else th) * 2 ^ 32 + seq

/-- The replay unit (R94): the SA with its new window, or none where the number is refused. -/
def espReplay (e : SaEntry) (seq : Nat) : Option SaEntry :=
  let t := e.nextPn - 1
  let w := espWin e.replayWin
  if w = 0 then some e
  else if t < seq then
    some { e with window := (e.window * 2 ^ (seq - t) + 1) % 2 ^ 1024, nextPn := seq + 1 }
  else if w ≤ t - seq then none
  else if bit e.window (t - seq) then none
  else some { e with window := putBit e.window (t - seq) true }

/-- Padding bytes are 1, 2, 3 and onward (R102). -/
def espPadOk (pad : List Byte) : Bool := pad == (List.range pad.length).map fun i => BitVec.ofNat 8 (i + 1)

/-- The ones'-complement checksum of an IPv4 header whose checksum field is zero. -/
def ipChecksum (h : List Byte) : Nat :=
  let sum := (List.range (h.length / 2)).foldl (fun a i => a + be16 h (2 * i)) 0
  let f := fun x => x % 65536 + x / 65536
  65535 - f (f (f sum))

/-- The frame with ESP removed (R102): the inner packet in tunnel mode; the protocol field, length and IPv4 header
checksum restored in transport mode (log entry 19). -/
def espRestore (b : List Byte) (x : EspSpot) (tunnel : Bool) (payload : List Byte) (nh : Nat) : List Byte :=
  let ip := x.et + 2
  if tunnel then b.take x.et ++ (if nh = 4 then [0x08, 0x00] else [0x86, 0xDD]) ++ payload
  else if x.v6 then
    splice (splice (b.take x.off) (ip + 4) (beBytes 2 payload.length)) (ip + 6) [BitVec.ofNat 8 nh] ++ payload
  else
    let h := splice (splice (splice (slice b ip 20) 2 (beBytes 2 (20 + payload.length))) 9 [BitVec.ofNat 8 nh]) 10 [0, 0]
    b.take ip ++ splice h 10 (beBytes 2 (ipChecksum h)) ++ payload

/-- One drop on an SA counts in the SA's record and under its reason (R104). -/
def State.saDrop (s : State) (code : Nat) (sa : Option Nat) (f : RxFrame) : State :=
  let s1 := match sa with
    | some i => s.post spSa i [0, 0, 1]
    | none => s
  s1.drop code f.bytes.length f.port

/-- One frame accepted on an SA (R104). -/
def State.saAccept (s : State) (i n : Nat) : State := s.post spSa i [1, n + 4, 0]

/-- ESP processing of a buffered frame whose SA is at hand: match, validity, ICV, replay, padding, inner header. -/
def State.espProcess (s0 : State) (f : RxFrame) (x : EspSpot) : State :=
  let b := f.bytes
  let spi := beNat (slice b x.off 4)
  let i := spi % 2 ^ 18
  let s := s0.saTouch i
  let e := s.sa i
  if !e.espMatch x spi then s.toFifo { f with espNoSa := true }
  else if !e.valid then s.saDrop 0x013 (some i) f
  else
    let seqLo := beNat (slice b (x.off + 4) 4)
    let seq := if e.ext then esnInfer (e.nextPn - 1) (espWin e.replayWin) seqLo else seqLo
    let aad := beBytes 4 spi ++ (if e.ext then beBytes 8 seq else beBytes 4 seqLo)
    let nonce := beBytes 4 (e.salt % 2 ^ 32) ++ slice b (x.off + 8) 8
    let ct := slice b (x.off + 16) (x.fin - x.off - 32)
    match Std.gcmOpen e.key nonce aad ct (slice b (x.fin - 16) 16) with
    | none => s.saDrop 0x016 (some i) f
    | some pt =>
      match espReplay e seq with
      | none => s.saDrop 0x019 (some i) f
      | some e1 =>
        let s1 := s.saNumbers i e1
        let n := pt.length
        let nh := beNat (slice pt (n - 1) 1)
        let padLen := beNat (slice pt (n - 2) 1)
        if n < padLen + 2 || !espPadOk (slice pt (n - 2 - padLen) padLen) then s1.saDrop 0x017 (some i) f
        else if e.tunnel && nh != 4 && nh != 41 then s1.saDrop 0x018 (some i) f
        else
          let out := espRestore b x e.tunnel (pt.take (n - 2 - padLen)) nh
          (s1.saAccept i out.length).toFifo { f with bytes := out, rxSa := i, prot := true, valid := true, espDec := true }

/-- A buffered ESP frame can go on: it passes unprocessed, or its SA is cached. -/
def State.espInReady (s : State) (f : RxFrame) : Bool :=
  f.espNoSa ||
  match espFind f.bytes with
  | some x => (mget s.cry.cache (beNat (slice f.bytes x.off 4) % 2 ^ 18)).isSome
  | none => false

/-- The first frame of an ESP buffer that can go on and has no earlier frame of its port before it: ESP frames of one port
leave in the order they came (R82). -/
def State.espInNext (s : State) (ports : List Nat) : List RxFrame → Option RxFrame
  | [] => none
  | f :: l => if !ports.contains f.port && s.espInReady f then some f else State.espInNext s (f.port :: ports) l

/-- Meaning of ESP_INBOUND: the slice's ESP unit takes the next buffered frame (R81, R82). -/
def execEspInbound (slice : Fin 8) (s : State) : Ans :=
  s.onCore fun s =>
    let q := mgetD s.cry.espIn slice.val []
    match s.espInNext [] q with
    | none => s
    | some f =>
      let s1 := { s with cry := { s.cry with espIn := msetD s.cry.espIn slice.val [] (q.erase f) } }
      if f.espNoSa then s1.toFifo f
      else match espFind f.bytes with
      | some x => s1.espProcess f x
      | none => s1

/-- The read that fetches an SA (R88). -/
def saRead (i : Nat) : HbmRead := ⟨saLA i, 256, 3⟩

/-- ESP on receive after MACsec (R83). A frame to process enters the slice's ESP buffer of 1 MiB or is dropped under
CRY_ESP_OVERLOAD (R81); ESP that passes unprocessed carries its flags, and waits there behind ESP frames of its port (R82). -/
def State.espRx (s : State) (f : RxFrame) : State :=
  match espFind f.bytes with
  | none => s.toFifo f
  | some x =>
    let sl := f.port / 16
    let q := mgetD s.cry.espIn sl []
    let through := x.frag || !s.fb F.CRY_CTRL_ESP_EN || !s.fb F.CRY_PORT_CFG_ESP_IN_EN f.port
    let g := if through then { f with espFrag := x.frag, espNoSa := true } else f
    if through && !q.any fun y => y.port == f.port then s.toFifo g
    else if 1048576 < fifoBytes q + f.bytes.length then (s.setF F.CRY_STATUS_ESP_OVL 1).drop 0x01A f.bytes.length f.port
    else
      let s1 := { s with cry := { s.cry with espIn := mset s.cry.espIn sl (q ++ [g]) } }
      if through || (mget s.cry.cache (beNat (slice f.bytes x.off 4) % 2 ^ 18)).isSome then s1
      else (s1.sat F.CRY_CACHE_MISSES 1).readBegin (saRead (beNat (slice f.bytes x.off 4) % 2 ^ 18))

/-! ### A line frame arrives (R60, R48, R96, R101) -/

/-- A signed 16-bit register field as an integer. -/
def signed16 (v : Nat) : Int := if v < 32768 then (v : Int) else (v : Int) - 65536

/-- A timestamp of the time base with a signed correction in ns: seconds and nanoseconds (R48). -/
def TimeBase.stamp (t : TimeBase) (adj : Int) : Nat × Nat :=
  let n := (((t.total : Int) + adj).emod (2 ^ 48 * (nsPerSec : Int))).toNat
  (n / nsPerSec, n % nsPerSec)

/-- MKA runs on a port (R95). -/
def State.mkaRuns (s : State) (p : Nat) : Bool :=
  s.fb F.CRY_PORT_CFG_MACSEC_EN p && (mgetD s.mka.ports p {}).run

/-- A frame that passed the receive checks goes through link crypto; its FCS is gone. -/
def State.lineDeliver (s : State) (p : Nat) (body : List Byte) : State :=
  let t := s.tb.stamp (signed16 (s.pf F.LNE_TS_ADJ_RX_ADJ p))
  let f : RxFrame := { port := p, bytes := body, sec := t.1, ns := t.2 }
  let s1 := (s.live p ctrRxOk 1).post spPort (2 * p) [1, body.length + 4]
  if be16 body 12 == 0x888E && s1.mkaRuns p then s1
  else match s1.macsecRx f with
  | (.discard code sa, s2) => s2.saDrop code sa f
  | (.deliver g, s2) =>
    let s3 := if g.prot && g.valid then s2.saAccept g.rxSa g.bytes.length else s2
    s3.espRx g

/-- A port's receiver takes a whole frame with its FCS; `cut` says a receive fault, a restart or a disable truncated it. While
the port is disabled, fails to receive or loops its receiver outward, no frame is delivered inward (R58, R70, R76). In far
loopback the counters work on the looped signal: a frame that fails a check counts and is dropped as ever, one that passes
counts in RX_FRAMES_OK alone (DESIGN CHOICE, log entry 108). -/
def State.lineReceive (s : State) (p : Nat) (frame : List Byte) (cut : Bool) (gfp : GfpInfo) : State :=
  let deaf := !s.portEn p || s.rxFailing p || !s.fb F.CRY_STATUS_ZERO_DONE
  match s.rxCheck p frame cut gfp with
  | some (code, ctr) =>
    if deaf && !cut then s
    else (s.live p ctr 1).drop code (Nat.min frame.length (s.maxFrame p + 1) - 4) p
  | none =>
    if deaf then s
    else if s.pf F.LNE_PORT_CTRL_LOOPBACK p = 2 then s.live p ctrRxOk 1
    else s.lineDeliver p (frame.take (frame.length - 4))

/-- Meaning of LINE_FRAME_RECEIVE: the line's frame reaches the port's receiver. In near and serial loopback the line is
ignored; in far loopback what it brings leaves by the port's transmitter again (R76). While the device drains for P4 the
receivers are off, and the frame that was in progress is cut (R396). -/
def execLineFrameReceive (port : BitVec 7) (frame : List Byte) (cut : Bool) (gfp : GfpInfo) (s : State) : Ans :=
  s.onCore fun s =>
    let p := port.toNat
    let loop := s.pf F.LNE_PORT_CTRL_LOOPBACK p
    if s.loopedIn p || (s.pwr.p4Drain && !cut) then s
    else
      let s1 := if loop = 2 ∧ s.portEn p ∧ !s.pfb F.LNE_PORT_CTRL_TX_DISABLE p then s.emit (.lineTx p frame) else s
      s1.lineReceive p frame cut gfp

/-! ### The MKA record of a port (R95, R97) -/

/-- The MKA record of a port. -/
def State.mkaPort (s : State) (p : Nat) : MkaPort := mgetD s.mka.ports p {}
/-- Replace the MKA record of a port. -/
def State.setMka (s : State) (p : Nat) (m : MkaPort) : State :=
  { s with mka := { s.mka with ports := msetD s.mka.ports p {} m } }

/-- A port becomes secured or unsecured, with the event and the notice (R97, R367). -/
def State.secure (s : State) (p : Nat) (b : Bool) : State :=
  let m := s.mkaPort p
  if m.secured = b then s else ((s.setMka p { m with secured := b }).raise (if b then 260 else 261)).mkaNotice b p

/-- Every port's key agreement is void: its SAs are gone or its policy is loaded afresh, so no port stays secured, and a live
peer wants a new SAK (R97, R100). -/
def State.unsecureAll (s : State) : State :=
  (s.mka.ports.map (·.1)).foldl (fun t p =>
    let u := t.secure p false
    let m := u.mkaPort p
    u.setMka p { m with rekey := none, oldRx := [], an := 0, want := m.peer.isSome }) s

/-- MKA wants a rekey on the ports whose TX SA is i (R97). -/
def State.wantRekey (s : State) (i : Nat) : State :=
  (s.mka.ports.map (·.1)).foldl (fun t p =>
    let m := t.mkaPort p
    if m.run && t.fb F.CRY_TX_SA_EN p && t.f F.CRY_TX_SA_SA p == i then t.setMka p { m with want := true } else t) s

/-! ### Notices, packet numbers of transmit, switching (R90, R91, R105) -/

/-- The notice event is raised while the FIFO holds a notice (R105): where the pending bit of source 258 has been cleared
meanwhile and no raise of it is on its way, it is raised again. -/
def State.noticeLevel (s : State) : State :=
  if s.cry.notices.isEmpty || bit (s.f F.EVT_GRP_PEND_PEND 8) 2 || (mget s.evt.xing 258).isSome then s else s.raise 258

/-- Post a notice: 1 PN_WARN, 2 PN_EXHAUSTED; a full FIFO of 256 discards it and sets NOTICE_OVF. -/
def State.notice (s : State) (kind i : Nat) : State :=
  if 256 ≤ s.cry.notices.length then s.setF F.CRY_STATUS_NOTICE_OVF 1
  else ({ s with cry := { s.cry with notices := s.cry.notices ++ [(kind, i)] } }).raise 258

/-- The word a read of CRY_NOTICE returns, and the state with the notice removed; the event stands while notices do. A PN_WARN
notice of its TX SA has the resident MKA start a rekey (R97). -/
def State.noticeRead (s : State) : W32 × State :=
  match s.cry.notices with
  | [] => (0, s)
  | (k, i) :: rest =>
    let s1 := { s with cry := { s.cry with notices := rest } }
    let s2 := if rest.isEmpty then s1 else s1.raise 258
    (BitVec.ofNat 32 (2 ^ 31 + k * 2 ^ 29 + i), if k = 1 then s2.wantRekey i else s2)

/-- The largest number an SA sends (R90). -/
def SaEntry.maxPn (e : SaEntry) : Nat := if e.ext then 2 ^ 64 - 1 else 2 ^ 32 - 1

/-- A transmit SA's successor is valid and of the same type (R91). -/
def State.successor (s : State) (i : Nat) : Option Nat :=
  let e := s.sa i
  let n := s.sa e.nextSa
  if e.valid && e.nextValid && n.valid && n.type == e.type && (e.type == 1 || e.type == 3) then some e.nextSa else none

/-- A transmit SA switches to its successor: frames naming it use the successor from now on, and for MACsec every port naming
it names the successor (R91). What the successor itself had switched to is void. -/
def State.switchSa (s : State) (i n : Nat) : State :=
  let s1 := (List.range 128).foldl (fun t p =>
    if t.fb F.CRY_TX_SA_EN p && t.f F.CRY_TX_SA_SA p == i then t.setF F.CRY_TX_SA_SA n p else t) s
  let s2 := s1.saNumbers n { s1.sa n with switched := none }
  s2.saNumbers i { s2.sa i with switched := some n }

/-- The effect of a write of CRY_SA_SWITCH. -/
def State.saSwitchWrite (s : State) (i : Nat) : State :=
  match s.successor i with
  | some n => s.switchSa i n
  | none => s

/-- The number an SA sends next: NEXT_PN, but never 0 (R90). -/
def SaEntry.number (e : SaEntry) : Nat := Nat.max 1 e.nextPn

/-- The SA and number for the next frame that names transmit SA i, or the reason of its drop (R87, R90, R91). A switched SA
leads to its successor; an SA whose numbers are spent switches, or posts PN_EXHAUSTED once. Fuel bounds the chain. -/
def State.txNumber : Nat → State → Nat → Except Nat (Nat × Nat) × State
  | 0, s, _ => (.error 0x1C, s)
  | fuel + 1, s, i =>
    let e := s.sa i
    match e.switched with
    | some n => State.txNumber fuel s n
    | none =>
      if !e.valid then (.error 0x1B, s)
      else if e.maxPn < e.number then
        match s.successor i with
        | some n => State.txNumber fuel (s.switchSa i n) n
        | none => (.error 0x1C, if e.spent then s else (s.saNumbers i { e with spent := true }).notice 2 i)
      else
        let s1 := s.saNumbers i { e with nextPn := e.number + 1 }
        (.ok (i, e.number), if e.nextPn ≤ e.limit && e.limit ≤ e.number then s1.notice 1 i else s1)

/-- SAs in the table, which bounds a chain of successors. -/
def saCount : Nat := 262144

/-- Meaning of CRY_ZERO_DONE: the SA region, cache and CAM have been zeroed (R100). -/
def execCryZeroDone (s : State) : Ans :=
  s.onCore fun s =>
    if s.fb F.CRY_STATUS_ZERO_DONE || !s.hbmReady then s
    else
      ((({ s with cry := { s.cry with sa := [], cache := [], lru := [], cam := [] } }).hbmWritten (saLA 0) (saCount * 256)).setF
        F.CRY_STATUS_ZERO_DONE 1)

end Sys2Proof.Machine
end

