-- ==== Sys2Proof/Machine/Parse.lean ====
section
/-! DEFINITION. The parse walk, the pattern matcher, the commit check, range comparators, key building and mirror
sampling (chapter 5). -/
namespace Sys2Proof.Machine

/-! ### Entry layouts -/

/-- The field [hi:lo] of word w of a table entry. -/
def wf (e : List Nat) (w hi lo : Nat) : Nat := bits (e.getD w 0) hi lo

/-- w bits of a frame from bit b, most significant first. -/
def frameBits (f : List Byte) (b w : Nat) : Nat :=
  let n := (b % 8 + w + 7) / 8
  beNat (slice f (b / 8) n) / 2 ^ (n * 8 - b % 8 - w) % 2 ^ w

/-- The window of a frame (R106). -/
def windowLen : Nat := 512

/-- A key of a parser memory: slice, bank and index. -/
def bankKey (sl bank size idx : Nat) : Nat := (sl * 2 + bank) * size + idx

/-! ### The walk (R108) -/

/-- check(b, w) of R108: the reason of the failing check, if any. -/
def checkField (n b w : Nat) : Option Nat :=
  if n * 8 < b + w then some 0x033 else if windowLen * 8 < b + w then some 0x034 else none

/-- Bytes of the window from an offset; bytes outside frame or window read 0 (R108). -/
def windowBytes (f : List Byte) (off n : Nat) : List Byte :=
  (List.range n).map fun i => if off + i < windowLen then f.getD (off + i) 0 else 0

/-- One extraction (EXTn of Table 5-2). -/
def extract (f : List Byte) (off ext : Nat) (fv : List Byte) : List Byte :=
  if bit ext 31 then
    (splice fv (bits ext 17 12) (windowBytes f (off + bits ext 30 22) (bits ext 21 18 + 1))).take 64
  else fv

/-- The outcome of a node: KIND and NEXT of the lowest-indexed matching transition, or the default. -/
def nextOf (tr : Nat → List Nat) (n : List Nat) (sel : Nat) : Nat × Nat :=
  let base := wf n 0 36 25
  match (List.range (wf n 0 24 18)).find? fun i =>
      (sel &&& wf (tr (base + i)) 0 31 0) == wf (tr (base + i)) 0 63 32 with
  | some i => (wf (tr (base + i)) 1 63 62, wf (tr (base + i)) 1 61 54)
  | none => (wf n 0 9 8, wf n 0 17 10)

/-- The length a node's advance rule gives, or the failing reason. -/
def advance (f : List Byte) (n : List Nat) (off : Nat) : Except Nat Nat :=
  if wf n 1 63 62 = 0 then .ok (wf n 1 61 53)
  else
    match checkField f.length (off * 8 + wf n 1 52 41) (wf n 1 40 37 + 1) with
    | some r => .error r
    | none =>
      let len := (frameBits f (off * 8 + wf n 1 52 41) (wf n 1 40 37 + 1) + wf n 1 36 28) * 2 ^ wf n 1 27 25
      if len < wf n 1 61 53 then .error 0x032 else .ok len

/-- One node visit: the outcome with the results so far, or the failing reason. The offset and next node of a walk that
goes on come as `inl`, an accepted walk's payload offset as `inr`. -/
def visit (tr : Nat → List Nat) (n : List Nat) (f : List Byte) (off : Nat) (o : ParseOut) :
    ParseOut × Except Nat (Sum (Nat × Nat) Nat) :=
  if !bit (n.getD 0 0) 63 then (o, .error 0x030)
  else
    let selB := off * 8 + wf n 0 53 42
    let selW := wf n 0 41 37 + 1
    match if 0 < wf n 0 24 18 then checkField f.length selB selW else none with
    | some r => (o, .error r)
    | none =>
      let sel := if 0 < wf n 0 24 18 then frameBits f selB selW else 0
      match advance f n off with
      | .error r => (o, .error r)
      | .ok len =>
        if f.length < off + len then (o, .error 0x033)
        else if windowLen < off + len then (o, .error 0x034)
        else if wf n 0 54 54 = 1 ∧ o.stack.length = 24 then (o, .error 0x035)
        else
          let st := if wf n 0 54 54 = 1 then o.stack ++ [(wf n 0 62 55, off)] else o.stack
          let fv := [wf n 2 63 32, wf n 2 31 0, wf n 3 63 32, wf n 3 31 0].foldl (fun v e => extract f off e v) o.fv
          let o1 := { o with stack := st, fv := fv }
          let k := nextOf tr n sel
          if k.1 = 1 then (o1, .ok (.inr (off + len)))
          else if k.1 = 0 then (o1, .ok (.inl (off + len, k.2)))
          else (o1, .error 0x030)

/-- The walk from a node with some visits left; a 49th visit fails under PRS_LOOP (R108, R109). -/
def walk (nodes tr : Nat → List Nat) (f : List Byte) : Nat → Nat → Nat → ParseOut → ParseOut
  | 0, _, _, o => { o with fail := 0x031 }
  | fuel + 1, node, off, o =>
    let r := visit tr (nodes node) f off { o with visits := o.visits + 1 }
    match r.2 with
    | .error c => { r.1 with fail := c }
    | .ok (.inr p) => { r.1 with payload := p }
    | .ok (.inl (off1, node1)) => walk nodes tr f fuel node1 off1 r.1

/-- The parse of a frame on a slice's bank from a local port's start node. -/
def State.parse (s : State) (sl bank lp : Nat) (f : List Byte) : ParseOut :=
  walk (fun n => mgetD s.prs.nodes (bankKey sl bank 256 n) []) (fun t => mgetD s.prs.trans (bankKey sl bank 4096 t) [])
    f 48 (mgetD s.prs.starts (bankKey sl bank 16 lp) 0 % 256) 0 { fv := List.replicate 64 0 }

/-! ### Patterns (R112, R113) -/

/-- Byte k of a pattern's VALUE (row 1) or MASK (row 5). -/
def patByte (e : List Nat) (row k : Nat) : Nat := bits (e.getD (row + k / 8) 0) (63 - 8 * (k % 8)) (56 - 8 * (k % 8))

/-- The anchor position of a pattern for a parsed frame, if it exists. -/
def anchorOf (e : List Nat) (o : ParseOut) : Option Nat :=
  match wf e 0 57 56 with
  | 0 => some 0
  | 1 => if o.fail = 0 then some o.payload else none
  | 2 => (o.stack.find? fun h => h.1 == wf e 0 55 48).map (·.2)
  | _ => none

/-- A pattern matches a frame (R112). -/
def patMatches (e : List Nat) (f : List Byte) (o : ParseOut) : Bool :=
  bit (e.getD 0 0) 63 &&
  match anchorOf e o with
  | none => false
  | some a =>
    let len := wf e 0 62 58 + 1
    let lo := wf e 0 47 39
    let hi := wf e 0 38 30
    let lim := Nat.min f.length windowLen
    (List.range (hi + 1 - lo)).any fun i =>
      let pos := a + lo + i
      decide (pos + len ≤ lim) && (List.range len).all fun k =>
        ((f.getD (pos + k) 0).toNat &&& patByte e 5 k) == (patByte e 1 k &&& patByte e 5 k)

/-- The matcher's report on a slice's bank (R113). -/
def State.patterns (s : State) (sl bank : Nat) (f : List Byte) (o : ParseOut) : PatternOut :=
  let base := bankKey sl bank 1024 0
  let hits := s.prs.pats.filter fun kv => base ≤ kv.1 && kv.1 < base + 1024 && patMatches kv.2 f o
  { groups := hits.foldl (fun g kv => g ||| 2 ^ wf kv.2 0 29 24) 0, idx := (hits.map fun kv => kv.1 - base).take 4 }

/-! ### Commit (R115) -/

/-- A transition or default outcome names a valid node where it goes to one, and no reserved KIND. -/
def kindCode (valid : Nat → Bool) (kind next : Nat) : Nat :=
  if kind = 3 then 4 else if kind = 0 && !valid next then 3 else 0

/-- The lowest check code present among codes, 0 for none. -/
def lowestCode (l : List Nat) : Nat := l.foldl (fun a c => if c = 0 then a else if a = 0 ∨ c < a then c else a) 0

/-- The codes of one valid node (Table 5-5). An EXTn with EN clear makes no extraction, so code 5 does not cover it (DESIGN
CHOICE, log entry 90). -/
def nodeCode (valid : Nat → Bool) (tr : Nat → List Nat) (n : List Nat) : Nat :=
  let cnt := wf n 0 24 18
  let base := wf n 0 36 25
  let size := if 64 < cnt ∨ 4096 < base + cnt then 2 else 0
  let trs := if size = 2 then [] else
    (List.range cnt).map fun i => kindCode valid (wf (tr (base + i)) 1 63 62) (wf (tr (base + i)) 1 61 54)
  let exts := [wf n 2 63 32, wf n 2 31 0, wf n 3 63 32, wf n 3 31 0].map fun e =>
    if bit e 31 && decide (64 < bits e 17 12 + bits e 21 18 + 1) then 5 else 0
  lowestCode ([size, kindCode valid (wf n 0 9 8) (wf n 0 17 10), if 2 ≤ wf n 1 63 62 then 4 else 0] ++ trs ++ exts)

/-- The check of a slice's inactive bank against Table 5-5. -/
def State.prsCheck (s : State) (sl bank : Nat) : Nat :=
  let valid := fun n => bit ((mgetD s.prs.nodes (bankKey sl bank 256 n) []).getD 0 0) 63
  let tr := fun t => mgetD s.prs.trans (bankKey sl bank 4096 t) []
  let starts := (List.range 16).map fun p => if valid (mgetD s.prs.starts (bankKey sl bank 16 p) 0 % 256) then 0 else 1
  let nb := bankKey sl bank 256 0
  let nodes := s.prs.nodes.map fun kv =>
    if nb ≤ kv.1 ∧ kv.1 < nb + 256 ∧ bit (kv.2.getD 0 0) 63 then nodeCode valid tr kv.2 else 0
  let pb := bankKey sl bank 1024 0
  let pats := s.prs.pats.map fun kv =>
    if pb ≤ kv.1 ∧ kv.1 < pb + 1024 ∧ bit (kv.2.getD 0 0) 63 ∧ (wf kv.2 0 38 30 < wf kv.2 0 47 39 ∨ wf kv.2 0 57 56 = 3)
    then 6 else 0
  lowestCode (starts ++ nodes ++ pats)

/-- The active parse bank of a slice. -/
def State.prsBank (s : State) (sl : Nat) : Nat := b2n (bit (s.f F.PRS_BANK_STATUS_ACTIVE) sl)

/-- The effect of a write of PRS_COMMIT (R115): PENDING sets for the masked slices, or the write is ignored. -/
def State.prsCommit (s : State) (mask : Nat) : State :=
  if s.f F.PRS_BANK_STATUS_PENDING ≠ 0 then s.cfgErr F.PRS_BANK_STATUS_CFG_ERR 288
  else s.setF F.PRS_BANK_STATUS_PENDING mask

/-- A commit's check ends: the masked slices swap at a pica boundary, or the commit is refused with the lowest failing slice
and its code (R115). -/
def State.prsSwap (s : State) : State :=
  let mask := s.f F.PRS_BANK_STATUS_PENDING
  if mask = 0 then s
  else
    let s1 := s.setF F.PRS_BANK_STATUS_PENDING 0
    match (List.range 8).find? fun sl => bit mask sl && s.prsCheck sl (1 - s.prsBank sl) != 0 with
    | some sl =>
      ((s1.setF F.PRS_BANK_STATUS_CHECK_CODE (s.prsCheck sl (1 - s.prsBank sl))).setF F.PRS_BANK_STATUS_CHECK_SLICE
        sl).cfgErr F.PRS_BANK_STATUS_CFG_ERR 288
    | none => s1.setF F.PRS_BANK_STATUS_ACTIVE (s.f F.PRS_BANK_STATUS_ACTIVE ^^^ mask)

/-- Meaning of PRS_COMMIT_END (R115). -/
def execPrsCommitEnd (s : State) : Ans := s.onCore State.prsSwap

/-! ### Range comparators and keys (R116 to R118) -/

/-- Comparator n of a slice on a frame (R117). -/
def State.rangeBit (s : State) (sl n len : Nat) (fv : List Byte) : Bool :=
  let src := s.f F.CLS_RANGE_SRC_SRC sl n
  let v := if src < 0x20 then some (be16 fv (2 * src)) else if src = 0x20 then some len else none
  match v with
  | none => false
  | some v => s.fb F.CLS_RANGE_SRC_EN sl n && decide (s.f F.CLS_RANGE_BOUND_LO sl n ≤ v) &&
      decide (v ≤ s.f F.CLS_RANGE_BOUND_HI sl n)

/-- Eight result bits as a byte, bit 0 first. -/
def byteOf (g : Nat → Bool) : Byte := BitVec.ofNat 8 ((List.range 8).foldl (fun a i => if g i then a + 2 ^ i else a) 0)

/-- The key source vector of 112 bytes (Table 5-6). -/
def State.keySource (s : State) (f : RxFrame) (o : ParseOut) (m : PatternOut) : List Byte :=
  let sl := f.port / 16
  let len := f.bytes.length
  o.fv ++ (List.range 32).map (fun k => byteOf fun i => s.rangeBit sl (8 * k + i) len o.fv) ++
  (List.range 8).map (fun k => byteOf fun i => bit m.groups (8 * k + i)) ++
  [BitVec.ofNat 8 f.port,
   byteOf fun i => match i with
     | 0 => f.prot | 1 => f.valid | 2 => f.espDec
     | 3 => f.espNoSa | 4 => f.espFrag | 5 => m.groups != 0 | _ => false] ++
  beBytes 2 len ++ [BitVec.ofNat 8 o.stack.length] ++ beBytes 2 o.payload ++ [0]

/-- The 40-byte key of profile k (R118). -/
def State.profileKey (s : State) (sl k : Nat) (src : List Byte) : List Byte :=
  (List.range 40).map fun j =>
    let w := (s.rd .CLS_PROF_SEL sl k (j / 4)).toNat
    let sel := bits w (30 - 8 * (j % 4)) (24 - 8 * (j % 4))
    if sel ≤ 0x6F then src.getD sel 0 else 0

/-- Bytes of a search width encoding. -/
def widthBytes (w : Nat) : Nat := match w with | 0 => 10 | 1 => 20 | _ => 40

/-- Search t of a profile, when enabled: its table, width encoding and key bytes. -/
def State.profileSearch (s : State) (sl k t : Nat) (key : List Byte) : Option (Nat × Nat × List Byte) :=
  let w := (s.rd .CLS_PROF_CTRL sl k 0).toNat
  let sh := if t = 0 then w / 2 ^ 15 else w
  if bit sh 16 then
    let width := bits sh 15 14
    some (bits sh 13 8, width, slice key (bits sh 7 2) (widthBytes width))
  else none

/-- A profile control word that R118 refuses: a reserved width, or a start whose width runs past byte 40. -/
def profBad (w : Nat) : Bool :=
  [w / 2 ^ 15, w].any fun sh => bits sh 15 14 == 3 || decide (40 < bits sh 7 2 + widthBytes (bits sh 15 14))

/-! ### Actions (R120 to R123) -/

/-- The reason codes available to access lists: the user codes the store names (R384). -/
def State.userCode (s : State) (c : Nat) : Bool := 0x200 ≤ c && s.boot.names.contains c

/-- The action word of Table 5-7. -/
def actOf (w : Nat) : Nat := bits w 63 62
def prioOf (w : Nat) : Nat := bits w 61 58
def reasonOf (w : Nat) : Nat := bits w 57 48
def ringOf (w : Nat) : Nat := bits w 47 44
def mirrorOf (w : Nat) : Nat := bits w 43 38
def userOf (w : Nat) : Nat := bits w 31 0

/-- The default word of a local port (R123). -/
def State.defaultWord (s : State) (sl lp : Nat) : Nat :=
  s.f F.CLS_PORT_CFG_DEF_ACT sl lp * 2 ^ 62 + s.f F.CLS_PORT_CFG_DEF_REASON sl lp * 2 ^ 48 +
  s.f F.CLS_PORT_CFG_DEF_RING sl lp * 2 ^ 44 + s.f F.CLS_PORT_CFG_DEF_MIRROR sl lp * 2 ^ 38 +
  s.f F.CLS_PORT_USER_USER sl lp

/-- Mirror sampling of one slice (R122): whether this action would make a copy, and the counter's next state. -/
def State.mirrorSample (s : State) (sl m : Nat) : Bool × State :=
  let n := s.f F.CLS_MIR_SAMPLE_N m
  if n < 2 then (true, s)
  else
    let c := mgetD s.prs.sample (sl * 64 + m) 0 + 1
    let hit := decide (n ≤ c)
    (hit, { s with prs := { s.prs with sample := msetD s.prs.sample (sl * 64 + m) 0 (if hit then 0 else c) } })

/-- A mirrored copy of bytes: truncated to TRUNC × 64 bytes (R122). -/
def State.mirrorBytes (s : State) (m : Nat) (b : List Byte) : List Byte :=
  let t := s.f F.CLS_MIR_CFG_TRUNC m
  if t = 0 then b else b.take (64 * t)

end Sys2Proof.Machine
end

