-- ==== Sys2Proof/Machine/Exm.lean ====
section
/-! DEFINITION. Exact-match tables, learning and ageing (chapter 6): hashing, lookup, the update engine, the learn unit, the
sweepers, and the mirror records that the changes produce (R311). -/
namespace Sys2Proof.Machine

/-! ### Mirroring (R311) -/

/-- The member is principal. -/
def State.principal (s : State) : Bool := s.fb F.RED_STATUS_PRINCIPAL
/-- The twin link is up. -/
def State.twinUp (s : State) : Bool := s.fb F.RED_STATUS_TWIN_UP

/-- The valid stream entry of a number (R315). -/
def State.streamOf (s : State) (id : Nat) : Option Stream := (mget s.cb id).filter (·.valid)

/-- The principal queues a mirror record for the second member; a full queue is discarded, and a new snapshot starts with
RESYNC in the hellos (R311). -/
def State.mirrorRec (s : State) (r : MirRec) : State :=
  if s.doublet && s.principal && s.twinUp then
    if 16384 ≤ s.twin.queue.length then
      let s1 := { s with twin := { s.twin with queue := [.snapBegin], resync := true, snap := true, nearPos := 0, farPos := 0, tailPos := 0 } }
      (((s1.setF F.RED_STATUS_SYNCING 1).setF F.RED_SYNC_PROGRESS 0).sat F.RED_SYNC_OVF 1).raise 100
    else { s with twin := { s.twin with queue := s.twin.queue ++ [r] } }
  else s

/-- Row w of an exact-match entry of a store (Table 6-2). -/
def xRow (far : Bool) (e : XEntry) (w : Nat) : Nat :=
  if w = 0 then 2 ^ 63 + e.kind * 2 ^ 61 + e.table * 2 ^ 57 + b2n e.hit * 2 ^ 56 + b2n e.aged * 2 ^ 55 +
      b2n e.expired * 2 ^ 54 + e.ts * 2 ^ 32 + e.result
  else if far then e.key / 2 ^ (64 * (3 - w)) % 2 ^ 64 else e.key % 2 ^ 64

/-! ### Tables and hashing (R125, R126, R129) -/

/-- The store of a table: 0 near, 1 far. -/
def State.xStore (s : State) (t : Nat) : Nat := s.f F.XMT_TBL_CFG_STORE t
/-- A table is enabled. -/
def State.xEn (s : State) (t : Nat) : Bool := s.fb F.XMT_TBL_CFG_EN t
/-- Buckets of a table's partition. -/
def State.xSize (s : State) (t : Nat) : Nat := 2 ^ s.f F.XMT_TBL_CFG_SIZE_LOG2 t

/-- One bit of a CRC with no reflection. -/
def crcBit (w poly c : Nat) (b : Bool) : Nat :=
  let top := bit c (w - 1) != b
  let sh := c * 2 % 2 ^ w
  if top then sh ^^^ poly else sh

/-- A CRC of width w over bytes, most significant bit first, with no reflection and no final inversion. -/
def crcBytes (w poly init : Nat) (l : List Byte) : Nat :=
  l.foldl (fun c x => [7, 6, 5, 4, 3, 2, 1, 0].foldl (fun c i => crcBit w poly c (bit x.toNat i)) c) init

/-- The polynomials of Table 6-5. -/
def hashPoly (n : Nat) : Nat :=
  match n with | 0 => 0x04C11DB7 | 1 => 0x1EDC6F41 | 2 => 0x741B8CD7 | _ => 0x814141AB

/-- A key with every bit at or above KEY_BITS zero (R126). -/
def State.xKey (s : State) (t key : Nat) : Nat := key % 2 ^ s.f F.XMT_TBL_CFG_KEY_BITS t

/-- The two buckets of a key (R129). -/
def State.xBuckets (s : State) (t key : Nat) : Nat × Nat :=
  let n := (s.f F.XMT_TBL_CFG_KEY_BITS t + 7) / 8
  let b := BitVec.ofNat 8 t :: beBytes n key
  let seed := s.f F.XMT_TBL_SEED_SEED t
  let base := s.f F.XMT_TBL_BASE_BASE t
  (base + crcBytes 32 (hashPoly (s.f F.XMT_TBL_CFG_HASH_A t)) seed b % s.xSize t,
   base + crcBytes 32 (hashPoly (s.f F.XMT_TBL_CFG_HASH_B t)) (seed ^^^ 0xFFFFFFFF) b % s.xSize t)

/-- The key of a way of a bucket in the entry map. -/
def entKey (store bucket way : Nat) : Nat := store * 2 ^ 25 + bucket * 4 + way
/-- The key of a CAM entry in the CAM map. -/
def camKey (store idx : Nat) : Nat := store * 2 ^ 17 + idx
/-- CAM entries of a store (Table 6-1). -/
def camSize (store : Nat) : Nat := if store = 0 then 16384 else 65536

/-- The ways of one or two buckets, in lookup order (R130). -/
def waysOf (store : Nat) (ab : Nat × Nat) : List Nat :=
  let a := (List.range 4).map (entKey store ab.1)
  if ab.1 = ab.2 then a else a ++ (List.range 4).map (entKey store ab.2)

/-- Where a key is found: a way, or a CAM entry. -/
inductive XSpot where
  | way (k : Nat) | cam (k : Nat)
  deriving DecidableEq, Repr

/-- The entry at a spot. -/
def State.xAt (s : State) (x : XSpot) : Option XEntry :=
  match x with
  | .way k => mget s.exm.ent k
  | .cam k => (mget s.exm.cam k).map (·.e)

/-- An entry matches a table and key. -/
def entFor (e : XEntry) (t key : Nat) : Bool := e.table == t && e.key == key

/-- The lowest-addressed CAM entry of a store that passes a test. -/
def State.camFind (s : State) (store : Nat) (p : CamEntry → Bool) : Option Nat :=
  (s.exm.cam.find? fun kv => kv.1 / 2 ^ 17 == store && p kv.2).map (·.1)

/-- Find a key as R130 does: bucket A's ways, bucket B's ways, then the lowest CAM entry. -/
def State.xFind (s : State) (t key : Nat) : Option XSpot :=
  let store := s.xStore t
  match (waysOf store (s.xBuckets t key)).find? fun k =>
      match mget s.exm.ent k with | some e => entFor e t key | none => false with
  | some k => some (.way k)
  | none => (s.camFind store fun c => entFor c.e t key).map .cam

/-- LA of a way of the far store (Table 10-2). -/
def farLA (k : Nat) : Nat := 0x80000000 + k % 2 ^ 25 * 32

/-- A way is written with an entry or as free; in the far store the write clears a poison mark of its burst (R234). -/
def State.entSet (s : State) (k : Nat) (e : Option XEntry) : State :=
  let s1 := if k / 2 ^ 25 = 1 then s.hbmWritten (farLA k) 32 else s
  { s1 with exm := { s1.exm with ent := match e with | some x => mset s1.exm.ent k x | none => merase s1.exm.ent k } }

/-- Write an entry at a spot it already holds. -/
def State.xPut (s : State) (x : XSpot) (e : XEntry) : State :=
  match x with
  | .way k => s.entSet k (some e)
  | .cam k =>
    match mget s.exm.cam k with
    | some c => { s with exm := { s.exm with cam := mset s.exm.cam k { c with e := e } } }
    | none => s

/-- ENTRIES and CAM_USED of a table after entries came or went. -/
def State.xCount (s : State) (t : Nat) : State :=
  let n := (s.exm.ent.filter fun kv => kv.2.table == t).length
  let c := (s.exm.cam.filter fun kv => kv.2.e.table == t).length
  (s.setF F.XMT_TBL_ENTRIES_ENTRIES (n + c) t).setF F.XMT_TBL_CAM_CAM_USED c t

/-- The table's NOW. -/
def State.xNow (s : State) (t : Nat) : Nat := s.f F.XMT_TBL_TIME_NOW t

/-! ### Insert, update, delete (R133, R134) -/

/-- What the update engine answers. -/
inductive XRes where
  | ok | duplicate | limit | full | notFound
  deriving DecidableEq, Repr

/-- The lowest free way of a bucket. -/
def State.freeWay (s : State) (store b : Nat) : Option Nat :=
  ((List.range 4).map (entKey store b)).find? fun k => (mget s.exm.ent k).isNone

/-- Free ways of a bucket. -/
def State.freeWays (s : State) (store b : Nat) : Nat :=
  (((List.range 4).map (entKey store b)).filter fun k => (mget s.exm.ent k).isNone).length

/-- The other bucket of the entry at a way. -/
def State.otherBucket (s : State) (k : Nat) : Option Nat :=
  (mget s.exm.ent k).map fun e =>
    let ab := s.xBuckets e.table e.key
    if ab.1 = k % 2 ^ 25 / 4 then ab.2 else ab.1

/-- One relocation: the first way whose entry's other bucket is different and has a free way. -/
def State.relocate (s : State) (store : Nat) (ways : List Nat) : Option (Nat × Nat) :=
  ways.findSome? fun k =>
    match s.otherBucket k with
    | some y => if y = k % 2 ^ 25 / 4 then none else (s.freeWay store y).map fun w => (k, w)
    | none => none

/-- An entry with its fields as an insert leaves them (Table 6-3). -/
def State.xFresh (s : State) (t kind result key : Nat) : XEntry :=
  { kind := kind, table := t, hit := kind == 0, ts := if kind = 1 then s.xNow t else 0, result := result, key := key }

/-- Insert an entry (R133). -/
def State.xInsert (s : State) (e : XEntry) : XRes × State :=
  let t := e.table
  let store := s.xStore t
  let ab := s.xBuckets t e.key
  let lim := s.f F.XMT_TBL_LIMIT_LIMIT t
  if (s.xFind t e.key).isSome then (.duplicate, s)
  else if lim ≠ 0 ∧ lim ≤ s.f F.XMT_TBL_ENTRIES_ENTRIES t then (.limit, s)
  else
    let fa := s.freeWays store ab.1
    let fb := if ab.1 = ab.2 then 0 else s.freeWays store ab.2
    let put := fun (u : State) k x => u.entSet k (some x)
    match (if 0 < fa + fb then s.freeWay store (if fb ≤ fa then ab.1 else ab.2) else none) with
    | some k => (.ok, (put s k e).xCount t)
    | none =>
      match s.relocate store (waysOf store ab) with
      | some (k, w) =>
        match mget s.exm.ent k with
        | some old => (.ok, (put (put s w old) k e).xCount t)
        | none => (.full, s)
      | none =>
        match (List.range (camSize store)).find? fun i => (mget s.exm.cam (camKey store i)).isNone with
        | some i =>
          (.ok, ({ s with exm := { s.exm with cam := mset s.exm.cam (camKey store i) ⟨e, ab.1, ab.2⟩ } }).xCount t)
        | none => (.full, s)

/-- Clear an entry, promoting the lowest CAM entry of the table with that bucket into a freed way (R134). -/
def State.xClear (s : State) (t : Nat) (x : XSpot) : State :=
  match x with
  | .cam k => ({ s with exm := { s.exm with cam := merase s.exm.cam k } }).xCount t
  | .way k =>
    let b := k % 2 ^ 25 / 4
    match s.camFind (k / 2 ^ 25) fun c => c.e.table == t && (c.a == b || c.b == b) with
    | some i =>
      match mget s.exm.cam i with
      | some c => ({ s with exm := { s.exm with cam := merase s.exm.cam i } }.entSet k (some c.e)).xCount t
      | none => s
    | none => (s.entSet k none).xCount t

/-- Delete a key (R134). -/
def State.xDelete (s : State) (t key : Nat) : XRes × State :=
  match s.xFind t key with
  | none => (.notFound, s)
  | some x => (.ok, s.xClear t x)

/-- An entry rewritten by UPDATE (R134). -/
def entUpdate (e : XEntry) (kind ts result : Nat) : XEntry :=
  let same := e.kind == kind
  { e with kind := kind, result := result
           hit := if kind = 0 then (if same then e.hit else true) else false
           aged := if kind = 0 then (if same then e.aged else false) else false
           expired := false
           ts := if kind = 1 then ts else 0 }

/-- Update a key in place (R134). -/
def State.xUpdate (s : State) (t key kind ts result : Nat) : XRes × State :=
  match s.xFind t key with
  | none => (.notFound, s)
  | some x =>
    match s.xAt x with
    | some e => (.ok, s.xPut x (entUpdate e kind ts result))
    | none => (.notFound, s)

/-! ### Notices (R139) -/

/-- Post a notice to the ring, which lies in management SRAM; a full ring discards it and sets NOTICE_OVF. -/
def State.xNotice (s : State) (kind t : Nat) (x : XSpot) (key result : Nat) : State :=
  if 4096 ≤ s.hst.learned.length then s.setF F.XMT_STATUS_NOTICE_OVF 1
  else
    let n : XNotice := { kind := kind, table := t, store := s.xStore t
                         cam := match x with | .cam _ => true | .way _ => false
                         idx := match x with | .cam k => k % 2 ^ 17 | .way k => k % 2 ^ 25
                         key := s.xKey t key, result := result
                         wide := decide (64 < s.f F.XMT_TBL_CFG_KEY_BITS t) }
    { s with hst := { s.hst with learned := s.hst.learned ++ [n] } }

/-! ### Uncorrectable entries (R142) -/

/-- The way reads uncorrectably for good: a burst of the far store marked poisoned. -/
def State.wayPoisoned (s : State) (k : Nat) : Bool := k / 2 ^ 25 == 1 && s.poisoned (farLA k) 32

/-- A way of table t's partition found uncorrectable is written free and reported (R142). The notice's key and result are as
read from the failed way and may hold the error (R367), so they are free values; the location code names the burst of a far
way (R228), and of a near one FD with finer fields that the spec does not give (log entry 93). -/
def State.xUncorr (s : State) (t k : Nat) : State :=
  let x := s.fresh
  let r := x.2.fresh
  let k0 := r.2.fresh
  let k1 := k0.2.fresh
  let k2 := k1.2.fresh
  let loc := if k / 2 ^ 25 = 1 then s.laLocation (farLA k) else anyLocation 0 x.1
  let key := k0.1.toNat * 2 ^ 128 + k1.1.toNat * 2 ^ 64 + k2.1.toNat
  ((((k2.2.entSet k none).xCount t).xNotice 3 t (.way k) key (r.1.toNat % 2 ^ 32)).wr .XMT_ECC_LOG 0 0 0 loc).setF
    F.XMT_STATUS_ECC_UNCORR 1 |>.raiseD 290 loc

/-- Buckets of table t are read: the ways that read uncorrectably are freed (R142). -/
def State.xScrub (s : State) (t : Nat) (ways : List Nat) (bad : Nat → Bool) : State :=
  (ways.filter fun k => bad k || s.wayPoisoned k).foldl (fun u k => u.xUncorr t k) s

/-- The buckets of a key are read by the update engine. -/
def State.xRead (s : State) (t key : Nat) : State :=
  s.xScrub t (waysOf (s.xStore t) (s.xBuckets t key)) fun _ => false

/-- The bursts of the far store that a read of a key's buckets asks for. -/
def farSpans (ways : List Nat) : List (Nat × Nat) := (ways.filter fun k => k % 4 == 0).map fun k => (farLA k, 128)

/-- Work on the buckets of a list of ways: in the far store it is a request of class FAR (Table 10-3). -/
def State.xAccess (s : State) (far : Bool) (ways : List Nat) (f : State → State) : State :=
  if far then s.onHbm 2 true (farSpans ways) f else f s

/-! ### Lookup (R130, R137) -/

/-- Queue a learn request; one already waiting for the key takes the new result, and a full unit discards it (R137). -/
def State.learnAsk (s : State) (store : Nat) (r : LearnReq) : State :=
  let q := mgetD s.exm.learn store []
  if q.any fun x => x.table == r.table && x.key == r.key then
    { s with exm := { s.exm with learn := mset s.exm.learn store (q.map fun x =>
        if x.table == r.table && x.key == r.key then r else x) } }
  else if 4096 ≤ q.length then (s.sat F.XMT_LEARN_STATUS_DROPS 1).setF F.XMT_STATUS_LEARN_OVF 1
  else { s with exm := { s.exm with learn := mset s.exm.learn store (q ++ [r]) } }

/-- A touched entry (R130). -/
def State.xTouch (s : State) (x : XSpot) (e : XEntry) : State :=
  if e.kind = 0 then s.xPut x { e with hit := true }
  else if e.kind = 1 then s.xPut x { e with ts := s.xNow e.table, expired := false }
  else s

/-- The response word of R185. The fields that the spec states for no such outcome (KIND and RESULT of a miss or an error,
ERR_KIND of a miss or a hit) are those of a free value (log entry 2). -/
def xWord (status kind err result : Nat) (free : W64) : W64 :=
  let hit := status == 1
  let k := if hit then kind else bits free.toNat 61 60
  let e := if status = 2 then err else bits free.toNat 59 57
  BitVec.ofNat 64 (status * 2 ^ 62 + k * 2 ^ 60 + e * 2 ^ 57 + (if hit then result else free.toNat) % 2 ^ 32)

/-- A response sets out for a thread (R187). -/
def State.respond (s : State) (thread gen rd : Nat) (ws : List W64) : State :=
  { s with ppe := { s.ppe with resp := s.ppe.resp ++ [⟨thread, gen, rd, ws⟩] } }

/-- The ways that a lookup reads. -/
def State.lookWays (s : State) (r : XReq) : List Nat := waysOf (s.xStore r.table) (s.xBuckets r.table (s.xKey r.table r.key))

/-- One lookup, with the places of the ways that read uncorrectably: the response word and the state after touch and learn. A
lookup issued before CLEAR_DONE misses (R143); one issued while its table was not enabled answers ERROR (R125). -/
def State.xLookup (s0 : State) (r : XReq) (bad : List (Fin 8)) : W64 × State :=
  let t := r.table
  let fs := s0.fresh
  let s := fs.2
  let xWord := fun a b c d => xWord a b c d fs.1
  let key := s.xKey t r.key
  let learn := fun (u : State) =>
    if r.learn && u.fb F.XMT_TBL_CFG_LEARN t then u.learnAsk (u.xStore t) ⟨t, key, r.result⟩ else u
  if !r.ready then (xWord 0 0 0 0, learn s)
  else if !r.en then (xWord 2 0 1 0, s)
  else
    let ways := s.lookWays r
    let hurt := ways.zipIdx.filter fun ki => (bad.any fun b => b.val == ki.2) || s.wayPoisoned ki.1
    if !hurt.isEmpty then (xWord 2 0 0 0, (hurt.map (·.1)).foldl (fun u k => u.xUncorr t k) s)
    else
      match s.xFind t key with
      | none => (xWord 0 0 0 0, learn s)
      | some x =>
        match s.xAt x with
        | none => (xWord 0 0 0 0, learn s)
        | some e =>
          let s1 := if r.touch then s.xTouch x e else s
          (xWord 1 e.kind 0 e.result, if e.kind = 0 ∧ e.result ≠ r.result then learn s1 else s1)

/-- The bank of a bucket as a store counts its reads of a pica: the near store's 32 banks serve one read a cycle each, the far
store 128 reads together (Table 6-1). -/
def bankOf (far : Bool) (bucket : Nat) : Nat := if far then 32 else bucket % 32

/-- A store has room for one more lookup in this pica (Table 6-1). -/
def State.lookRoom (s : State) (far : Bool) (ways : List Nat) : Bool :=
  let bks := (ways.filter fun k => k % 4 == 0).map fun k => bankOf far (k % 2 ^ 25 / 4)
  decide (mgetD s.exm.looked (b2n far) 0 < if far then 64 else 512) &&
  bks.all fun b => decide (mgetD s.exm.reads b 0 + (bks.filter (· == b)).length ≤ if far then 128 else 32)

/-- A lookup takes its place in the pica. -/
def State.lookTake (s : State) (far : Bool) (ways : List Nat) : State :=
  let bks := (ways.filter fun k => k % 4 == 0).map fun k => bankOf far (k % 2 ^ 25 / 4)
  { s with exm := { s.exm with looked := mset s.exm.looked (b2n far) (mgetD s.exm.looked (b2n far) 0 + 1)
                               reads := bks.foldl (fun m b => mset m b (mgetD m b 0 + 1)) s.exm.reads } }

/-- Meaning of EXACT_MATCH_LOOKUP: a store serves its oldest queued lookup; beyond the maximum of Table 6-1 it waits in the
queue (R130, R132). -/
def execExactMatchLookup (far : Bool) (bad : List (Fin 8)) (s : State) : Ans :=
  s.onCore fun s =>
    match mgetD s.exm.reqs (b2n far) [] with
    | [] => s
    | r :: rest =>
      let serve := fun (u : State) =>
        let s1 := { u with exm := { u.exm with reqs := msetD u.exm.reqs (b2n far) [] rest } }
        let a := s1.xLookup r bad
        a.2.respond r.thread r.gen r.rd [a.1]
      if !r.en || !r.ready then serve s
      else if !s.lookRoom far (s.lookWays r) then s
      else s.xAccess far (s.lookWays r) fun u => serve (u.lookTake far (s.lookWays r))

/-! ### The update FIFO (R135, R136) -/

/-- The update FIFO of a store. -/
def State.xFifo (s : State) (store : Nat) : List XOp := mgetD s.exm.fifo store []

/-- Replace the update FIFO of a store. -/
def State.setXFifo (s : State) (store : Nat) (l : List XOp) : State :=
  { s with exm := { s.exm with fifo := msetD s.exm.fifo store [] l } }

/-- An operation enters the FIFO of a store. -/
def State.xPush (s : State) (store : Nat) (o : XOp) : State := s.setXFifo store (s.xFifo store ++ [o])

/-- The FIFO of 1,024 operations has room. -/
def State.xFifoRoom (s : State) (store : Nat) : Bool := decide ((s.xFifo store).length < 1024)

/-- The freeing of a table's entries is queued, with its partition. -/
def State.xFreeing (s : State) (store : Nat) : List (Nat × Nat × Nat) :=
  (s.xFifo store).filterMap fun o => match o with
    | .free t b n => some (t, b, n)
    | _ => none

/-- The second member applies an exact-match record: an insert of a present key is an update (R311). -/
def State.applyEntry (s : State) (e : XEntry) : State :=
  if !s.xEn e.table then s.sat F.RED_SYNC_APPLY_FAIL 1
  else if (s.xFind e.table e.key).isSome then (s.xUpdate e.table e.key e.kind e.ts e.result).2
  else match s.xInsert e with
  | (.ok, s1) => s1
  | (_, s1) => s1.sat F.RED_SYNC_APPLY_FAIL 1

/-- The second member applies an exact-match record of the mirror stream. -/
def State.applyX (s : State) (r : MirRec) : State :=
  match r with
  | .entry _ e => (s.xRead e.table e.key).applyEntry e
  | .removal _ t key => if s.xEn t then ((s.xRead t key).xDelete t key).2 else s.sat F.RED_SYNC_APPLY_FAIL 1
  | _ => s

/-- The records of the mirror stream at the head of a FIFO are applied; fuel bounds their number. -/
def State.xDrain : Nat → State → Nat → State
  | 0, s, _ => s
  | n + 1, s, store =>
    match s.xFifo store with
    | .mirror r :: rest => State.xDrain n ((s.setXFifo store rest).applyX r) store
    | _ => s

/-- The operation at the head of a FIFO ends: records of the mirror stream behind it follow. -/
def State.xNext (s : State) (store : Nat) : State := State.xDrain (s.xFifo store).length s store

/-- A record of the mirror stream for an update engine: behind the operations of its FIFO. -/
def State.xMirror (s : State) (t : Nat) (r : MirRec) : State :=
  let u := s.xNext (s.xStore t)
  if (u.xFifo (u.xStore t)).isEmpty then u.applyX r else u.xPush (u.xStore t) (.mirror r)

/-! ### Learning (R138) -/

/-- Apply one learn request (R138); the key's bits at or above KEY_BITS are zero (R126). A request for a table that is neither
enabled nor, behind this request, being freed is refused. -/
def State.learnOne (s0 : State) (r : LearnReq) : State :=
  let t := r.table
  let key := s0.xKey t r.key
  let s := s0.xRead t key
  let on := s.xEn t || (s.xFreeing (s.xStore t)).any fun x => x.1 == t
  match s.xFind t key with
  | some x =>
    match s.xAt x with
    | none => s
    | some e =>
      if e.kind = 0 then
        let e1 := { e with result := r.result, hit := true, aged := false }
        (((s.xPut x e1).sat F.XMT_LEARN_STATUS_MOVES 1).xNotice 1 t x key r.result).mirrorRec (.entry (s.xStore t) e1)
      else s.sat F.XMT_LEARN_STATUS_STATIC_CONFLICT 1
  | none =>
    let e := s.xFresh t 0 r.result key
    match if on then s.xInsert e else (.full, s) with
    | (.ok, s1) =>
      match s1.xFind t key with
      | some x => (s1.xNotice 0 t x key r.result).mirrorRec (.entry (s.xStore t) e)
      | none => s1
    | (_, s1) => s1.sat F.XMT_LEARN_STATUS_DROPS 1

/-- The ways that work on a key of a table touches. -/
def State.keyWays (s : State) (t key : Nat) : List Nat := waysOf (s.xStore t) (s.xBuckets t (s.xKey t key))

/-- Meaning of LEARN_APPLY: the update engine of a store applies the oldest learn request (R138). Behind other operations the
request enters the FIFO, while that has room (R135). -/
def execLearnApply (far : Bool) (s : State) : Ans :=
  s.onCore fun s =>
    let st := b2n far
    let s := s.xNext st
    match s.xFifo st with
    | .learn r :: rest =>
      s.xAccess far (s.keyWays r.table r.key) fun u => ((u.setXFifo st rest).learnOne r).xNext st
    | l =>
      match mgetD s.exm.learn st [] with
      | [] => s
      | r :: rest =>
        let take := fun (u : State) => { u with exm := { u.exm with learn := msetD u.exm.learn st [] rest } }
        if l.isEmpty then s.xAccess far (s.keyWays r.table r.key) fun u => (take u).learnOne r
        else if s.xFifoRoom st then (take s).xPush st (.learn r)
        else s

/-! ### Ageing and the sweepers (R140, R141) -/

/-- Meaning of AGEING_TICK: the table's NOW advances while it and the sweepers run (R140, log entry 7). -/
def execAgeingTick (table : BitVec 4) (s : State) : Ans :=
  s.onCore fun s =>
    let t := table.toNat
    if s.xEn t && s.fb F.XMT_CTRL_SWEEP_EN then s.setF F.XMT_TBL_TIME_NOW ((s.xNow t + 1) % 65536) t else s

/-- D of R140. -/
def State.sweepD (s : State) (t : Nat) : Nat :=
  s.f F.XMT_TBL_AGE_SWEEP_TICKS t * s.f F.XMT_TBL_AGE_TICK_MS t * 62500

/-- The accumulators of the enabled tables at a pica (R140). -/
def State.sweepPica (s : State) : State :=
  if s.fb F.XMT_CTRL_SWEEP_EN then
    (List.range 16).foldl (fun u t =>
      if u.xEn t then { u with exm := { u.exm with acc := msetD u.exm.acc t 0 (mgetD u.exm.acc t 0 + u.xSize t) } }
      else u) s
  else s

/-- An entry still meets the condition that queues its removal (R141). -/
def entDue (e : XEntry) : Bool := (e.kind == 0 && !e.hit && e.aged) || (e.kind == 1 && e.expired)

/-- Queue a removal where ageing may remove and the update FIFO has room (R141). -/
def State.queueRemoval (s : State) (t key : Nat) : State :=
  if s.fb F.XMT_CTRL_AGE_REMOVE && s.xFifoRoom (s.xStore t) then s.xPush (s.xStore t) (.removal t key) else s

/-- One visited entry (R141). -/
def State.visitEntry (s : State) (t : Nat) (x : XSpot) (e : XEntry) : State :=
  if e.kind = 0 then
    if e.hit then s.xPut x { e with hit := false, aged := false }
    else if !e.aged then s.xPut x { e with aged := true }
    else s.queueRemoval t e.key
  else if e.kind = 1 then
    let old := decide (s.f F.XMT_TBL_TIME_TIMEOUT t ≤ (s.xNow t + 65536 - e.ts) % 65536)
    let e1 := { e with expired := e.expired || old }
    let s1 := s.xPut x e1
    if e1.expired then s1.queueRemoval t e.key else s1
  else s

/-- Visit one bucket of a table: its entries, and the CAM entries whose BKT_A it is (R141). -/
def State.visitBucket (s : State) (t b : Nat) : State :=
  let store := s.xStore t
  let ways := (List.range 4).map fun w => XSpot.way (entKey store b w)
  let cams := (s.exm.cam.filter fun kv => kv.1 / 2 ^ 17 == store && kv.2.a == b).map fun kv => XSpot.cam kv.1
  (ways ++ cams).foldl (fun u x => match u.xAt x with
    | some e => if e.table = t then u.visitEntry t x e else u
    | none => u) s

/-- Meaning of SWEEPER_VISIT: once a pica the store's sweeper visits one bucket of its lowest-numbered eligible table, freeing
the entries that read uncorrectably (R140 to R142). A table that is disabled and enabled again keeps its accumulator, and its
position modulo its new size (DESIGN CHOICE, log entry 94). -/
def execSweeperVisit (far : Bool) (bad : List (Fin 4)) (s : State) : Ans :=
  s.onCore fun s =>
    if !s.fb F.XMT_CTRL_SWEEP_EN || s.exm.swept.contains (b2n far) then s
    else
      match (List.range 16).find? fun t =>
          s.xEn t && s.xStore t == b2n far && decide (s.sweepD t ≤ mgetD s.exm.acc t 0) with
      | none => s
      | some t =>
        let pos := mgetD s.exm.pos t 0 % s.xSize t
        let b := s.f F.XMT_TBL_BASE_BASE t + pos
        let ways := (List.range 4).map (entKey (b2n far) b)
        s.xAccess far ways fun u =>
          let s1 := { u with exm := { u.exm with acc := msetD u.exm.acc t 0 (mgetD u.exm.acc t 0 - u.sweepD t)
                                                 pos := msetD u.exm.pos t 0 ((pos + 1) % u.xSize t)
                                                 swept := b2n far :: u.exm.swept } }
          (s1.xScrub t ways fun k => bad.any fun w => w.val == k % 4).visitBucket t b

/-- A removal at the head of the FIFO: the entry is deleted if it still meets its condition (R141, Table 6-7). -/
def State.removeAged (s0 : State) (t key : Nat) : State :=
  let s := s0.xRead t key
  match s.xFind t key with
  | none => s
  | some x =>
    match s.xAt x with
    | none => s
    | some e =>
      if entDue e then ((s.xNotice 2 t x key e.result).xClear t x).mirrorRec (.removal (s.xStore t) t key) else s

/-- Meaning of SWEEPER_REMOVAL: the removal at the head of a store's FIFO is carried out (R141). -/
def execSweeperRemoval (far : Bool) (s : State) : Ans :=
  s.onCore fun s =>
    let st := b2n far
    let s := s.xNext st
    match s.xFifo st with
    | .removal t key :: rest =>
      s.xAccess far (s.keyWays t key) fun u => ((u.setXFifo st rest).removeAged t key).xNext st
    | _ => s

/-! ### Disabling a table (R125) -/

/-- The effect of clearing EN: the freeing of the table's entries is queued as one operation. It waits for no room, since a
register write does not wait (log entry 95). -/
def State.tableOff (s : State) (t : Nat) : State :=
  if s.f F.XMT_TBL_ENTRIES_ENTRIES t = 0 then s
  else s.xPush (s.xStore t) (.free t (s.f F.XMT_TBL_BASE_BASE t) (s.xSize t))

/-- A table's entries are freed in its partition and in the CAM; every way of the partition is written. -/
def State.tableFree (s : State) (store t base size : Nat) : State :=
  let s1 := if store = 1 then s.hbmWritten (farLA (base * 4)) (size * 128) else s
  { s1 with exm := { s1.exm with ent := mfilter (fun _ e => e.table != t) s1.exm.ent
                                 cam := mfilter (fun _ c => c.e.table != t) s1.exm.cam } }.xCount t

/-- Meaning of TABLE_FREE_DONE: the freeing of a disabled table's entries, at the head of its store's FIFO, ends (R125). -/
def execTableFreeDone (table : BitVec 4) (s : State) : Ans :=
  s.onCore fun s =>
    (List.range 2).foldl (fun (u : State) st =>
      let u := u.xNext st
      match u.xFifo st with
      | .free t base size :: rest =>
        if t = table.toNat then (((u.setXFifo st rest).tableFree st t base size).xNext st) else u
      | _ => u) s

/-- Two partitions (base and buckets) share a bucket. -/
def partsMeet (b n c m : Nat) : Bool := decide (c < b + n) && decide (b < c + m)

/-- A table's partition overlaps another's in the same store that is enabled or not yet freed. -/
def State.xOverlap (s : State) (t : Nat) : Bool :=
  let b := s.f F.XMT_TBL_BASE_BASE t
  ((List.range 16).any fun u =>
    u != t && s.xEn u && s.xStore u == s.xStore t && partsMeet b (s.xSize t) (s.f F.XMT_TBL_BASE_BASE u) (s.xSize u)) ||
  (s.xFreeing (s.xStore t)).any fun x => partsMeet b (s.xSize t) x.2.1 x.2.2

/-- The sum of 2^SIZE_LOG2 / D over the enabled tables of a store does not exceed 1 (R140), cleared of fractions. -/
def State.sweepFits (s : State) (store : Nat) : Bool :=
  let l := (List.range 16).filter fun t => s.xEn t && s.xStore t == store
  let den := l.foldl (fun a t => a * Nat.max 1 (s.sweepD t)) 1
  decide (l.foldl (fun a t => a + s.xSize t * (den / Nat.max 1 (s.sweepD t))) 0 ≤ den)

/-- The configuration of an enabled table breaks no rule of R125 or R140. -/
def State.xCfgOk (s : State) (t : Nat) : Bool :=
  let st := s.xStore t
  let kb := s.f F.XMT_TBL_CFG_KEY_BITS t
  let lg := s.f F.XMT_TBL_CFG_SIZE_LOG2 t
  decide (lg ≤ if st = 0 then 18 else 22) && s.f F.XMT_TBL_BASE_BASE t % s.xSize t == 0 &&
  decide (s.f F.XMT_TBL_BASE_BASE t + s.xSize t ≤ if st = 0 then 2 ^ 18 else 2 ^ 22) && !s.xOverlap t &&
  decide (1 ≤ kb) && decide (kb ≤ if st = 0 then 64 else 192) &&
  s.f F.XMT_TBL_CFG_HASH_A t != s.f F.XMT_TBL_CFG_HASH_B t && s.sweepFits st

/-- Meaning of XMT_CLEAR_DONE: both stores and CAMs have been written free (R143). -/
def execXmtClearDone (s : State) : Ans :=
  s.onCore fun s =>
    if s.fb F.XMT_STATUS_CLEAR_DONE || !s.hbmReady then s
    else
      let s1 := { s with exm := { s.exm with ent := [], cam := [] } }.hbmWritten (farLA 0) (2 ^ 29)
      ((List.range 16).foldl (fun u t => (u.setF F.XMT_TBL_TIME_NOW 0 t).xCount t) s1).setF F.XMT_STATUS_CLEAR_DONE 1

end Sys2Proof.Machine
end

