-- ==== Sys2Proof/Machine/Tern.lean ====
section
/-! DEFINITION. The ternary die (chapter 7): searching, entry writes and moves, the placement service, run moves, verification,
scrubbing and search port faults. -/
namespace Sys2Proof.Machine

/-- Rows of an entry by WIDTH encoding (Table 7-1). -/
def tdRows (w : Nat) : Nat := match w with | 0 => 1 | 1 => 2 | _ => 4

/-- A row as the shadow and the result memory hold it. -/
def State.row (s : State) (r : Nat) : TdRow := mgetD s.trn.rows r {}
/-- Write a row of the array, its shadow and its result. -/
def State.setRow (s : State) (r : Nat) (x : TdRow) : State :=
  { s with trn := { s.trn with rows := msetD s.trn.rows r {} x, bad := merase s.trn.bad r } }

/-- A row as the array holds it. -/
def State.arr (s : State) (r : Nat) : TdArr :=
  match mget s.trn.bad r with
  | some a => a
  | none => ⟨(s.row r).valid, (s.row r).value, (s.row r).mask⟩

/-- Upsets befall the array. -/
def State.upset (s : State) (l : List TdUpset) : State :=
  { s with trn := { s.trn with bad := l.foldl (fun m u =>
      mset m u.row.toNat ⟨u.valid, u.value.toNat, u.mask.toNat⟩) s.trn.bad } }

/-- The table that owns the block of a row, while the block is enabled. -/
def State.rowTable (s : State) (r : Nat) : Option Nat :=
  if s.fb F.TRN_BLK_CFG_EN (r / 4096) then some (s.f F.TRN_BLK_CFG_TABLE (r / 4096)) else none

/-- The enabled blocks of a table, in order. -/
def State.blocksOf (s : State) (t : Nat) : List Nat :=
  let base := Reg.TRN_BLK_CFG.addr 0 0 0
  (s.regs.filterMap fun kv =>
    if base ≤ kv.1 ∧ kv.1 < base + 8192 ∧ (kv.1 - base) % 8 = 0 then some ((kv.1 - base) / 8) else none).filter fun b =>
      s.rowTable (b * 4096) == some t

/-- Recompute ENTRIES of a table and USED of a block. -/
def State.tdCount (s : State) (r : Nat) : State :=
  let b := r / 4096
  match s.rowTable r with
  | none => s
  | some t =>
    let w := tdRows (s.f F.TRN_TBL_CFG_WIDTH t)
    let used := (s.trn.rows.filter fun kv => kv.1 / 4096 == b && kv.2.valid).length * w
    let n := (s.trn.rows.filter fun kv => kv.2.valid && s.rowTable kv.1 == some t).length
    (s.setF F.TRN_BLK_CFG_USED used b).setF F.TRN_TBL_ENTRIES_ENTRIES n t

/-! ### Facets (R152, R153) -/

/-- The facet bits of an n-bit number, in the upper bits of a 16-bit value. -/
def facetOf (off fb n v : Nat) : Nat := v / 2 ^ (n - off - fb) % 2 ^ fb * 2 ^ (16 - fb)
/-- The upper FACET_BITS bits. -/
def facetTop (fb : Nat) : Nat := (2 ^ fb - 1) * 2 ^ (16 - fb)

/-- A search takes in block b. -/
def State.blockOn (s : State) (t b key : Nat) : Bool :=
  let fb := s.f F.TRN_TBL_CFG_FACET_BITS t
  let n := 80 * tdRows (s.f F.TRN_TBL_CFG_WIDTH t)
  let fm := s.f F.TRN_BLK_FACET_FMASK b &&& facetTop fb
  (facetOf (s.f F.TRN_TBL_CFG_FACET_OFF t) fb n key &&& fm) == (s.f F.TRN_BLK_FACET_FVAL b &&& fm)

/-- An entry may stand in block b of table t (R153). -/
def State.facetOk (s : State) (t b value mask : Nat) : Bool :=
  let fb := s.f F.TRN_TBL_CFG_FACET_BITS t
  let off := s.f F.TRN_TBL_CFG_FACET_OFF t
  let n := 80 * tdRows (s.f F.TRN_TBL_CFG_WIDTH t)
  let fm := s.f F.TRN_BLK_FACET_FMASK b &&& facetTop fb
  (facetOf off fb n mask &&& fm) == fm && (facetOf off fb n value &&& fm) == (s.f F.TRN_BLK_FACET_FVAL b &&& fm)

/-- The VALUE and MASK of an entry as numbers of 80 × w bits, row 0 most significant. -/
def State.entryVM (s : State) (r w : Nat) : Nat × Nat :=
  (List.range w).foldl (fun a i => (a.1 * 2 ^ 80 + (s.row (r + i)).value, a.2 * 2 ^ 80 + (s.row (r + i)).mask)) (0, 0)

/-! ### Searching (R152, R154) -/

/-- The VALUE and MASK of an entry of w rows as the array holds them. -/
def State.arrVM (s : State) (r w : Nat) : Nat × Nat :=
  (List.range w).foldl (fun a i => (a.1 * 2 ^ 80 + (s.arr (r + i)).value, a.2 * 2 ^ 80 + (s.arr (r + i)).mask)) (0, 0)

/-- The array's entry at a row matches a key of a table (R151, R152). -/
def State.rowHits (s : State) (t key r : Nat) : Bool :=
  let w := tdRows (s.f F.TRN_TBL_CFG_WIDTH t)
  (s.arr r).valid && r % w == 0 && s.rowTable r == some t && s.blockOn t (r / 4096) key &&
  (let vm := s.arrVM r w
   (key &&& vm.2) == (vm.1 &&& vm.2))

/-- The matching entry with the lowest first row (R151, R152). -/
def State.tdMatch (s : State) (t key : Nat) : Option Nat :=
  ((s.trn.rows.map (·.1) ++ s.trn.bad.map (·.1)).filter (s.rowHits t key)).foldl (fun a r => match a with
    | none => some r
    | some b => some (Nat.min b r)) none

/-- The shadow confirms a hit: VALID, and the key against every row (R165). -/
def State.verified (s : State) (t key r : Nat) : Bool :=
  let vm := s.entryVM r (tdRows (s.f F.TRN_TBL_CFG_WIDTH t))
  (s.row r).valid && (key &&& vm.2) == (vm.1 &&& vm.2)

/-- Rewrite the array's rows of an entry from the shadow. -/
def State.rewrite (s : State) (r w : Nat) : State :=
  { s with trn := { s.trn with bad := mfilter (fun k (_ : TdArr) => !(decide (r ≤ k) && decide (k < r + w))) s.trn.bad } }

/-- The enabled blocks a search takes in, and its passes P (R154). -/
def State.tdPasses (s : State) (t key : Nat) : List Nat × Nat :=
  let on := (s.blocksOf t).filter fun b => s.blockOn t b key
  (on, ((List.range 4).map fun q => ((on.filter fun b => b / 256 == q).length + 63) / 64).foldl Nat.max 1)

/-- A port spends the P × w slots of a search, or of a re-run of it (R154, R165). -/
def State.tdSpend (s : State) (port : Nat) (q : TdReq) : State :=
  let n := (s.tdPasses q.table q.key).2 * tdRows q.width
  { s with trn := { s.trn with slots := mset s.trn.slots port (mgetD s.trn.slots port 0 + n) } }

/-- A port has a slot left in this pica (R25): a search begins on it, and the slots it takes beyond the pica's 32 are the next
pica's (log entry 91). -/
def State.tdSlot (s : State) (port : Nat) : Bool := decide (mgetD s.trn.slots port 0 < 32)

/-- The ports' slots at the boundary of a pica: those a search took beyond its 32 count in the new one. -/
def slotsCarry (m : SMap Nat) : SMap Nat := mfilter (fun _ (n : Nat) => decide (0 < n)) (mmap (fun _ n => n - 32) m)

/-- Count a search in TRN_FACET_STAT (R154): its enabled blocks over its passes. -/
def State.tdStat (s : State) (t key : Nat) : State :=
  let on := (s.tdPasses t key).1
  let p := (s.tdPasses t key).2
  let recent := ((on.length * 720720 / p) :: s.trn.recent).take (2 ^ 20)
  let s1 := { s with trn := { s.trn with recent := recent } }
  let s2 := if 1 < p then s1.sat F.TRN_FACET_STAT_MULTI_PASS 1 else s1
  s2.setF F.TRN_FACET_STAT_AVG_BLOCKS (recent.foldl (· + ·) 0 / recent.length / 720720)

/-- The search status word of R178; fields the spec states for no such outcome come from a free value (log entry 2). -/
def tdStatus (status err row : Nat) (free : W64) : W64 :=
  let e := if status = 2 then err else bits free.toNat 61 59
  let r := if status = 1 then row else bits free.toNat 21 0
  BitVec.ofNat 64 (status * 2 ^ 62 + e * 2 ^ 59 + r)

/-- A search's answer reaches its thread: the classifier's result, or a response for the program. -/
def State.tdAnswer (s : State) (q : TdReq) (status err row word : Nat) : State :=
  match q.dest with
  | .cls n =>
    let t := mgetD s.ppe.threads q.thread {}
    let x := Srch.done status err row word
    let t1 := if n = 0 then { t with s0 := x } else { t with s1 := x }
    if t.gen = q.gen then { s with ppe := { s.ppe with threads := mset s.ppe.threads q.thread t1 } } else s
  | .eng rd =>
    let a := s.fresh
    let b := a.2.fresh
    b.2.respond q.thread q.gen rd
      [if status = 1 then BitVec.ofNat 64 word else a.1, tdStatus status err row b.1]

/-- The ports of a slice that are in service. -/
def State.portLive (s : State) (k : Nat) : Bool := !bit (s.f F.TRN_PORT_STATUS_RETIRED) k

/-- Searches queued at a port. -/
def State.portQ (s : State) (k : Nat) : List TdReq := mgetD s.trn.q k []

/-- The port a slice's next search goes to (R155): none while both are full. -/
def State.portFor (s : State) (sl : Nat) : Option Nat :=
  let l := [2 * sl, 2 * sl + 1].filter fun k => s.portLive k && decide ((s.portQ k).length < 256)
  match l with
  | [a, b] => some (if (s.portQ b).length < (s.portQ a).length then b else a)
  | [a] => some a
  | _ => none

/-- Both ports of a slice are retired. -/
def State.tdLost (s : State) (sl : Nat) : Bool := !s.portLive (2 * sl) && !s.portLive (2 * sl + 1)

/-- A thread whose request was withheld goes on once the request is queued or answered (R155). -/
def State.wakeRoom (s : State) (q : TdReq) : State :=
  let t := mgetD s.ppe.threads q.thread {}
  if t.gen = q.gen ∧ t.state = .sleeping .room then
    { s with ppe := { s.ppe with threads := mset s.ppe.threads q.thread { t with state := .ready } } }
  else s

/-- A slice sends a search (R155, R168): it is queued at a port, withheld while both are full, or answered ERROR RETIRED. -/
def State.tdSend (s : State) (sl : Nat) (q : TdReq) : State :=
  if s.tdLost sl then (s.tdAnswer q 2 5 0 0).wakeRoom q
  else
    match s.portFor sl with
    | some k => ({ s with trn := { s.trn with q := mset s.trn.q k (s.portQ k ++ [q]) } }).wakeRoom q
    | none => { s with trn := { s.trn with held := mset s.trn.held sl (mgetD s.trn.held sl [] ++ [q]) } }

/-- The requests a slice withholds go to its ports in their order, as far as there is room. -/
def State.tdPump (s : State) (sl : Nat) : State :=
  (mgetD s.trn.held sl []).foldl (fun u q => u.tdSend sl q) { s with trn := { s.trn with held := merase s.trn.held sl } }

/-- The location code of a search port (Table 7-2). -/
def tdPortLocation (k : Nat) : W64 := location 3 2 0xF 0x3F (0x80 + k) naMacro naCell
/-- The location code of block b. -/
def tdBlockLocation (b : Nat) : W64 := location 3 2 (b / 256) (b % 256 / 16) (b % 16) naMacro naCell
/-- The location code of a bit of a row, in the array (0), the shadow (1) or the result memory (2). Of an entry of two or four
rows the model names the first row (DESIGN CHOICE, log entry 91). -/
def tdRowLocation (r m cell : Nat) : W64 :=
  let b := r / 4096
  location 1 2 (b / 256) (b % 256 / 16) (b % 16) m (r % 4096 * 2 ^ 12 + cell % 2 ^ 12)

/-- Retire a search port (R168): its queued searches go to the sibling, ahead of the requests the slice withholds where the
sibling has no place for them (log entry 91). -/
def State.tdRetire (s : State) (k : Nat) : State :=
  if !s.portLive k then s
  else
    let sl := k / 2
    let s1 := s.setF F.TRN_PORT_STATUS_RETIRED (putBit (s.f F.TRN_PORT_STATUS_RETIRED) k true)
    let s2 := ((s1.setF F.TRN_STATUS_PORT_RETIRED 1).wr .TRN_ERR_LOG 0 0 0 (tdPortLocation k)).raiseD 322
      (tdPortLocation k)
    let s3 := { s2 with trn := { s2.trn with q := merase s2.trn.q k
                                             held := mset s2.trn.held sl (s.portQ k ++ mgetD s2.trn.held sl []) } }
    (if s3.tdLost sl then s3.cond 2 true else s3).tdPump sl

/-- A count whose happenings within 2^20 picas reach a threshold (0 acts as 1). -/
def reached (l : List Nat) (now thr : Nat) : Bool :=
  decide (Nat.max 1 thr ≤ (l.filter fun p => now < p + 2 ^ 20).length)

/-- Count a port error; at the threshold the port retires (R168). -/
def State.tdPortError (s : State) (k : Nat) : State :=
  let l := s.pica.num :: mgetD s.trn.errs k []
  let s1 := { s with trn := { s.trn with errs := mset s.trn.errs k l } }
  if reached l s.pica.num (s.f F.TRN_CTRL_RETIRE_THR) then s1.tdRetire k else s1

/-- A false hit is recorded (R165); which bit is wrong is left open (log entry 91). -/
def State.falseHit (s : State) (r : Nat) : State :=
  let x := s.fresh
  let loc := tdRowLocation r 0 x.1.toNat
  ((x.2.setF F.TRN_STATUS_VERIFY_FAIL 1).wr .TRN_ERR_LOG 0 0 0 loc).raiseD 320 loc

/-- An uncorrectable shadow (1) or result (2) error of the hit entry clears its VALID in the array and the shadow (R166). -/
def State.tdUncorr (s : State) (r m : Nat) : State :=
  let x := s.fresh
  let loc := tdRowLocation r m x.1.toNat
  let s1 := (x.2.setRow r { s.row r with valid := false }).tdCount r
  let s2 := if m = 1 then s1.setF F.TRN_STATUS_SHADOW_UNCORR 1 else s1.setF F.TRN_STATUS_RESULT_UNCORR 1
  (s2.wr .TRN_ERR_LOG 0 0 0 loc).raiseD 321 loc

/-- A search's passes on a port, whose slots each run spends, with the re-runs still allowed and what the reads of each hit
find: the state with the answer, and the entries that lost their VALID (R152, R165, R166). A second failure of either kind
answers ERROR VERIFY (log entry 91). -/
def State.tdTry (port : Nat) (q : TdReq) : Nat → List TdHitErr → List Nat → State → State × List Nat
  | tries, errs, lost, s =>
    let s := s.tdSpend port q
    match s.tdMatch q.table q.key with
    | none => (s.tdAnswer q 0 0 0 0, lost)
    | some r =>
      if errs.head? = some .shadow then
        match tries with
        | 0 => ((s.tdUncorr r 1).tdAnswer q 2 2 0 0, r :: lost)
        | n + 1 => State.tdTry port q n (errs.drop 1) (r :: lost) (s.tdUncorr r 1)
      else if !s.verified q.table q.key r then
        let s1 := (s.falseHit r).rewrite r (tdRows q.width)
        match tries with
        | 0 => (s1.tdAnswer q 2 2 0 0, lost)
        | n + 1 => State.tdTry port q n (errs.drop 1) lost s1
      else if errs.head? = some .result then ((s.tdUncorr r 2).tdAnswer q 2 3 0 0, r :: lost)
      else (s.tdAnswer q 1 0 r (s.row r).result, lost)

/-- Write an entry of w rows: its result, rows and VALID (R160). -/
def State.tdWrite (s : State) (r w value mask result : Nat) (valid : Bool) : State :=
  let s1 := (List.range w).foldl (fun u i =>
    let sh := 2 ^ (80 * (w - 1 - i))
    u.setRow (r + i) { valid := false, value := value / sh % 2 ^ 80, mask := mask / sh % 2 ^ 80
                       result := if i = 0 then result else (u.row (r + i)).result }) s
  (s1.setRow r { s1.row r with valid := valid }).tdCount r

/-- The placement service reinstalls the entries of a managed table that lost their VALID, from its own copy: the result, all
rows and VALID of the entry it last wrote (R166). -/
def State.tdReinstall (s : State) (t : Nat) (l : List Nat) : State :=
  if s.fb F.TRN_TBL_CFG_MODE t then s
  else
    let w := tdRows (s.f F.TRN_TBL_CFG_WIDTH t)
    l.foldl (fun u r => let vm := u.entryVM r w; u.tdWrite r w vm.1 vm.2 (u.row r).result true) s

/-- One search on a port (R152, R165, R166). -/
def State.tdRun (s : State) (port : Nat) (q : TdReq) (hits : List TdHitErr) : State :=
  let t := q.table
  if !s.fb F.TRN_TBL_CFG_EN t then s.tdAnswer q 2 0 0 0
  else if s.f F.TRN_TBL_CFG_WIDTH t ≠ q.width then s.tdAnswer q 2 1 0 0
  else
    let r := State.tdTry port q 1 hits [] (s.tdStat t q.key)
    r.1.tdReinstall t r.2

/-- A port error on a search (R168): the search is re-issued once, on the same port, or on the sibling where the error retires
the port; a second error on it answers ERROR PORT. -/
def State.tdFail (s : State) (k : Nat) (q : TdReq) (f : TdFaults) : State :=
  let s1 := s.tdPortError k
  if q.err then s1.tdAnswer q 2 4 0 0
  else if !s1.portLive k then s1.tdSend (k / 2) { q with err := true }
  else if f.port.val = 2 then (s1.tdPortError k).tdAnswer q 2 4 0 0
  else s1.tdRun k q f.hits

/-- Meaning of TD_SEARCH: a search port runs its oldest queued search, with the hardware errors it meets (R152, R165 to
R168); its place goes to a withheld request. Without a slot left in its pica the search waits (R26). -/
def execTdSearch (port : BitVec 4) (fault : TdFaults) (s : State) : Ans :=
  s.onCore fun s =>
    let k := port.toNat
    let s0 := s.upset fault.upsets
    match s0.portQ k with
    | [] => s0
    | q :: rest =>
      if !s0.tdSlot k then s0
      else
      let s1 := { s0 with trn := { s0.trn with q := msetD s0.trn.q k [] rest } }
      (if fault.port.val = 0 then s1.tdRun k q fault.hits else s1.tdFail k q fault).tdPump (k / 2)

/-- Meaning of TRN_CLEAR_DONE: the array, the shadow and the result memory are clear (R169). After a PKG reset the device has
tested the search ports first, and retires those in `bad` (R168). -/
def execTrnClearDone (s : State) (bad : List (BitVec 4) := []) : Ans :=
  s.onCore fun s =>
    if s.fb F.TRN_STATUS_CLEAR_DONE then s
    else
      let s1 := { s with trn := { s.trn with rows := [], bad := [], bands := [], tested := true } }.setF
        F.TRN_STATUS_CLEAR_DONE 1
      if s.trn.tested then s1 else bad.foldl (fun (u : State) k => u.tdRetire k.toNat) s1

/-! ### Scrubbing (R167) -/

/-- An operation is yet to write a row. -/
def TdOp.writes (o : TdOp) (r : Nat) : Bool :=
  match o with
  | .run m => (decide (m.src ≤ r) && decide (r < m.src + m.count)) || (decide (m.dst ≤ r) && decide (r < m.dst + m.count))
  | .command _ l | .arm _ l => l.contains r

/-- A write of a row waits at the maintenance port (R164). -/
def State.rowWaits (s : State) (r : Nat) : Bool := s.trn.fifo.any fun o => o.writes r

/-- Replace the maintenance port's FIFO. -/
def State.setTdFifo (s : State) (l : List TdOp) : State := { s with trn := { s.trn with fifo := l } }

/-- The FIFO of 1,024 operations has room for another (R162). -/
def State.tdRoom (s : State) : Bool := decide (s.trn.fifo.length < 1024)

/-- An operation joins the FIFO, if it has room. -/
def State.tdPush (s : State) (o : TdOp) : State := if s.tdRoom then s.setTdFifo (s.trn.fifo ++ [o]) else s

/-- The rows in which two states of the die differ: those an operation writes. -/
def State.tdDiff (s u : State) : List Nat :=
  (s.trn.rows.map (·.1) ++ u.trn.rows.map (·.1)).eraseDups.filter fun r => s.row r != u.row r

/-- Meaning of TD_SCRUB_ROW: the scrubber compares the next row of the array with the shadow, and rewrites it if it differs
(R167); a row with a write waiting is skipped (R164). -/
def execTdScrubRow (upsets : List TdUpset) (s : State) : Ans :=
  s.onCore fun s =>
    let s0 := s.upset upsets
    if s0.f F.TRN_CTRL_SCRUB_RATE = 0 then s0
    else
      let r := s0.trn.scrub
      let differs := s0.arr r != ⟨(s0.row r).valid, (s0.row r).value, (s0.row r).mask⟩
      let s1 := if differs && !s0.rowWaits r then (s0.rewrite r 1).sat F.TRN_SCRUB_FIXED 1 else s0
      let s2 := { s1 with trn := { s1.trn with scrub := (r + 1) % 4194304 } }
      if s2.trn.scrub = 0 then s2.sat F.TRN_SCRUB_PASSES 1 else s2

/-! ### Writing and moving entries (R160, R161, R163) -/

/-- Clear an entry's VALID. -/
def State.tdClear (s : State) (r : Nat) : State :=
  let s1 := { s with trn := { s.trn with bands := merase s.trn.bands r } }
  (s1.setRow r { s1.row r with valid := false }).tdCount r

/-- Move an entry of w rows to a free row (R161). -/
def State.tdMove (s : State) (a b w : Nat) : State :=
  let vm := s.entryVM a w
  let s1 := s.tdWrite b w vm.1 vm.2 (s.row a).result true
  let s2 := match mget s1.trn.bands a with
    | some n => { s1 with trn := { s1.trn with bands := mset s1.trn.bands b n } }
    | none => s1
  s2.tdClear a

/-- Move a run of entries, offsets in the given order; answers the rows moved and whether a facet mismatch stopped it. -/
def State.runRows (t w src dst : Nat) : List Nat → Nat → State → Nat × Bool × State
  | [], n, s => (n, false, s)
  | i :: rest, n, s =>
    let a := src + i
    let b := dst + i
    if (s.row a).valid then
      let vm := s.entryVM a w
      if s.facetOk t (b / 4096) vm.1 vm.2 then runRows t w src dst rest (n + w) (if a = b then s else s.tdMove a b w)
      else (n, true, s)
    else runRows t w src dst rest (n + w) (s.tdClear b)

/-- The effect of a write of TRN_MOVE_CTRL with START (R163): a run joins the FIFO of R162, also a full one (log entry 91), or
is refused. Of a run that is both outside one raw table and not a multiple of w, CODE gives the first (DESIGN CHOICE, log
entry 91). -/
def State.runMove (s : State) (src dst count : Nat) : State :=
  if s.fb F.TRN_MOVE_STATUS_BUSY then s
  else
    let refuse := fun code =>
      ((s.setF F.TRN_MOVE_STATUS_CODE code).setF F.TRN_MOVE_STATUS_MOVED 0).setF F.TRN_STATUS_MOVE_REFUSED 1
    match s.rowTable src with
    | none => refuse 1
    | some t =>
      let w := tdRows (s.f F.TRN_TBL_CFG_WIDTH t)
      let inT := fun first => (List.range ((first + count - 1) / 4096 + 1 - first / 4096)).all fun i =>
        decide (first + count ≤ 4194304) && s.rowTable ((first / 4096 + i) * 4096) == some t
      if !s.fb F.TRN_TBL_CFG_MODE t || !inT src || !inT dst then refuse 1
      else if src % w ≠ 0 ∨ dst % w ≠ 0 ∨ count % w ≠ 0 then refuse 3
      else (s.setTdFifo (s.trn.fifo ++ [.run ⟨src, dst, count⟩])).setF F.TRN_MOVE_STATUS_BUSY 1

/-- Meaning of RUN_MOVE_END: the run's entries have moved in order, up to the first facet mismatch (R163). A run that waits
behind other operations has not begun, and moves nothing. -/
def execRunMoveEnd (s : State) : Ans :=
  s.onCore fun s =>
    match s.trn.fifo with
    | .run m :: rest =>
      let s1 := s.setTdFifo rest
      let t := (s1.rowTable m.src).getD 0
      let w := tdRows (s1.f F.TRN_TBL_CFG_WIDTH t)
      let offs := (List.range (m.count / w)).map (· * w)
      let r := State.runRows t w m.src m.dst (if m.dst < m.src then offs else offs.reverse) 0 s1
      let s2 := ((r.2.2.setF F.TRN_MOVE_STATUS_BUSY 0).setF F.TRN_MOVE_STATUS_MOVED r.1).setF F.TRN_MOVE_STATUS_CODE
        (if r.2.1 then 2 else 0)
      if r.2.1 then s2.setF F.TRN_STATUS_MOVE_REFUSED 1 else s2
    | _ => s

/-! ### The placement service (R157 to R159) -/

/-- Every facet bit of an entry's mask is set, so that it belongs in a deep block. -/
def State.deepEntry (s : State) (t mask : Nat) : Bool :=
  let fb := s.f F.TRN_TBL_CFG_FACET_BITS t
  facetOf (s.f F.TRN_TBL_CFG_FACET_OFF t) fb (80 * tdRows (s.f F.TRN_TBL_CFG_WIDTH t)) mask == facetTop fb

/-- A block is deep: its FMASK covers every facet bit. -/
def State.deepBlock (s : State) (t b : Nat) : Bool :=
  let top := facetTop (s.f F.TRN_TBL_CFG_FACET_BITS t)
  (s.f F.TRN_BLK_FACET_FMASK b &&& top) == top

/-- The facet bits of a value, in the upper bits of a 16-bit number, as a table takes them. -/
def State.facet (s : State) (t v : Nat) : Nat :=
  facetOf (s.f F.TRN_TBL_CFG_FACET_OFF t) (s.f F.TRN_TBL_CFG_FACET_BITS t) (80 * tdRows (s.f F.TRN_TBL_CFG_WIDTH t)) v

/-- The blocks of a table that hold entries, deep or shallow, in order. -/
def State.usedBlocks (s : State) (t : Nat) (deep : Bool) : List Nat :=
  (s.blocksOf t).filter fun b => s.deepBlock t b == deep && s.f F.TRN_BLK_CFG_USED b != 0

/-- A block the service can give to a table: not enabled, or the table's own without an entry. -/
def State.blockFree (s : State) (t b : Nat) : Bool :=
  s.f F.TRN_BLK_CFG_USED b == 0 && (!s.fb F.TRN_BLK_CFG_EN b || s.f F.TRN_BLK_CFG_TABLE b == t)


/-- Give a free block to a table with a facet. -/
def State.takeBlock (s : State) (t b fm fv : Nat) : State :=
  (((s.setF F.TRN_BLK_CFG_EN 1 b).setF F.TRN_BLK_CFG_TABLE t b).setF F.TRN_BLK_FACET_FMASK fm b).setF
    F.TRN_BLK_FACET_FVAL fv b

/-- Move the whole of shallow block a up to free block b. -/
def State.liftBlock (s : State) (t w a b : Nat) : State :=
  let s1 := s.takeBlock t b (s.f F.TRN_BLK_FACET_FMASK a) (s.f F.TRN_BLK_FACET_FVAL a)
  let rows := (s1.trn.rows.filter fun kv => kv.1 / 4096 == a && kv.2.valid).map (·.1)
  let s2 := rows.foldl (fun u r => u.tdMove r (b * 4096 + r % 4096) w) s1
  s2.setF F.TRN_BLK_CFG_EN 0 a

/-- The lowest block above every deep block of a table. -/
def State.shallowFrom (s : State) (t : Nat) : Nat :=
  match (s.usedBlocks t true).getLast? with | some d => d + 1 | none => 0

/-- The blocks of a table with one facet, in order: a deep group has those below every shallow block in use, a shallow one
those above every deep block in use, so that a block which lost its last entry keeps no place out of that order (R158). -/
def State.facetGroup (s : State) (t fm fv : Nat) : List Nat :=
  let top := facetTop (s.f F.TRN_TBL_CFG_FACET_BITS t)
  let low := s.shallowFrom t
  let high := (s.usedBlocks t false).head?.getD 1024
  (s.blocksOf t).filter fun b => (s.f F.TRN_BLK_FACET_FMASK b &&& top) == fm &&
    (s.f F.TRN_BLK_FACET_FVAL b &&& fm) == (fv &&& fm) && (if fm = top then decide (b < high) else decide (low ≤ b))

/-- Add a deep block with a facet value: below every shallow block, which first move up where only higher blocks are free
(R158). -/
def State.addDeep (s : State) (t fv : Nat) : Option State :=
  let top := facetTop (s.f F.TRN_TBL_CFG_FACET_BITS t)
  let shallow := s.usedBlocks t false
  match (List.range (shallow.head?.getD 1024)).find? (s.blockFree t) with
  | some b => some (s.takeBlock t b top fv)
  | none =>
    ((List.range 1024).find? (s.blockFree t)).map fun b =>
      let below := (shallow.filter fun c => decide (c < b)).reverse
      let w := tdRows (s.f F.TRN_TBL_CFG_WIDTH t)
      let r := below.foldl (fun (u : State × Nat) c => (u.1.liftBlock t w c u.2, c)) (s, b)
      r.1.takeBlock t r.2 top fv

/-- Add a shallow block with a facet: above every deep block. -/
def State.addShallow (s : State) (t fm fv : Nat) : Option State :=
  (((List.range 1024).filter fun b => decide (s.shallowFrom t ≤ b)).find? (s.blockFree t)).map fun b =>
    s.takeBlock t b fm fv

/-- The entries' first rows of a facet group, in address order. -/
def groupRows (w : Nat) (bl : List Nat) : List Nat :=
  bl.flatMap fun b => (List.range (4096 / w)).map fun i => b * 4096 + i * w

/-- The band of the valid entry at a row. -/
def State.bandAt (s : State) (r : Nat) : Option Nat := if (s.row r).valid then some (mgetD s.trn.bands r 0) else none

/-- The distinct bands of a list of rows, in their order, each with its rows. -/
def State.bandsOf (s : State) (l : List Nat) : List (Nat × List Nat) :=
  l.foldl (fun acc r =>
    let b := mgetD s.trn.bands r 0
    match acc.reverse with
    | (b', rs) :: t => if b' = b then (t.reverse ++ [(b, rs ++ [r])]) else acc ++ [(b, [r])]
    | [] => [(b, [r])]) []

/-- The free row for an entry of band L among a group's rows, after the moves of R159, if the group has one. Of two equally
near the end of the band it is the one after it (DESIGN CHOICE, log entry 74). -/
def State.placeRow (s : State) (w L : Nat) (rows : List Nat) : Option (Nat × State) :=
  let isFree := fun (r : Nat) => (s.bandAt r).isNone
  let ix := rows.zipIdx
  let fin := ix.foldl (fun a ri => match s.bandAt ri.1 with | some b => if L ≤ b then ri.2 + 1 else a | none => a) 0
  let after := (ix.filter fun ri => decide (fin ≤ ri.2)).find? fun ri => isFree ri.1
  let before := ((ix.filter fun ri => decide (ri.2 < fin)).reverse).find? fun ri => isFree ri.1
  let up := fun (f : Nat × Nat) =>
    let mid := (ix.filter fun ri => decide (fin ≤ ri.2) && decide (ri.2 < f.2)).map (·.1)
    (s.bandsOf mid).reverse.foldl (fun (u : Nat × State) b =>
      match b.2.head? with | some r => (r, u.2.tdMove r u.1 w) | none => u) (f.1, s)
  let down := fun (f : Nat × Nat) =>
    let mid := (ix.filter fun ri => decide (f.2 < ri.2) && decide (ri.2 < fin)).map (·.1)
    (s.bandsOf mid).foldl (fun (u : Nat × State) b =>
      match b.2.getLast? with | some r => (r, u.2.tdMove r u.1 w) | none => u) (f.1, s)
  match after, before with
  | some a, some b => some (if a.2 - fin ≤ fin - 1 - b.2 then up a else down b)
  | some a, none => some (up a)
  | none, some b => some (down b)
  | none, none => none

/-- A managed entry as the service places it: band, VALUE, MASK and result. -/
structure TdEntry where
  band : Nat
  value : Nat
  mask : Nat
  result : Nat
  deriving DecidableEq, Repr

/-- The entry whose first row is r. -/
def State.entryAt (s : State) (t r : Nat) : TdEntry :=
  let vm := s.entryVM r (tdRows (s.f F.TRN_TBL_CFG_WIDTH t))
  ⟨mgetD s.trn.bands r 0, vm.1, vm.2, (s.row r).result⟩

/-- The valid entries' first rows in blocks of a table, in address order. -/
def State.entriesIn (s : State) (bl : List Nat) : List Nat :=
  (s.trn.rows.filter fun kv => kv.2.valid && bl.contains (kv.1 / 4096)).map (·.1)

/-- Write a managed entry at a free row. -/
def State.putEntry (s : State) (t r : Nat) (e : TdEntry) : State :=
  let u := s.tdWrite r (tdRows (s.f F.TRN_TBL_CFG_WIDTH t)) e.value e.mask e.result true
  { u with trn := { u.trn with bands := mset u.trn.bands r e.band } }

/-- Two entries can match one key. -/
def TdEntry.overlaps (a b : TdEntry) : Bool := ((a.value ^^^ b.value) &&& (a.mask &&& b.mask)) == 0

/-- An entry among a list in order of bands, longest (or highest) first, after those of its own band. -/
def bandInsert (e : TdEntry) : List TdEntry → List TdEntry
  | [] => [e]
  | x :: l => if e.band ≤ x.band then x :: bandInsert e l else e :: x :: l

/-- The entries of one facet group fill free shallow blocks, in order. -/
def State.fillShallow (s : State) (t fm fv : Nat) (l : List TdEntry) : Option State :=
  let w := tdRows (s.f F.TRN_TBL_CFG_WIDTH t)
  (Std.blocks (4096 / w) l).foldl (fun (u : Option State) c => u.bind fun u =>
    ((List.range 1024).find? fun b => decide (s.shallowFrom t ≤ b) && u.blockFree t b).map fun b =>
      c.zipIdx.foldl (fun v x => v.putEntry t (b * 4096 + x.2 * w) x.1) (u.takeBlock t b fm fv)) (some s)

/-- The shallow region of a table is laid out again with facets that compare the bits of fm alone (log entry 91). -/
def State.relayShallow (s : State) (t fm : Nat) : Option State :=
  let bl := s.usedBlocks t false
  let rows := s.entriesIn bl
  let es := rows.map (s.entryAt t)
  let s1 := rows.foldl (fun u r => u.tdClear r) s
  let s2 := bl.foldl (fun u b => u.setF F.TRN_BLK_CFG_EN 0 b) s1
  let fvs := (es.map fun e => s.facet t e.value &&& fm).eraseDups
  fvs.foldl (fun (u : Option State) fv => u.bind fun u =>
    u.fillShallow t fm fv ((es.filter fun e => (s.facet t e.value &&& fm) == fv).foldr bandInsert [])) (some s2)

/-- A number with its n lowest set bits cleared. -/
def clearLow : Nat → Nat → Nat
  | 0, m => m
  | n + 1, m => clearLow n (m &&& (m - 1))

/-- The facet bits that the shallow blocks of a table compare: those of its shallow entries, or, for a first one, the bits
that every prefix under the same leading fields specifies (a VRF), and in an ACL table those that the entry specifies (R158,
log entry 91). -/
def State.shallowMask (s : State) (t : Nat) (e : TdEntry) : Nat :=
  let top := facetTop (s.f F.TRN_TBL_CFG_FACET_BITS t)
  match s.usedBlocks t false with
  | b :: _ => s.f F.TRN_BLK_FACET_FMASK b &&& top
  | [] => s.facet t (if s.fb F.TRN_TBL_CFG_KIND t then e.mask else clearLow e.band e.mask)

/-- Place an entry in a facet group, if it has a row for it after the moves of R159. -/
def State.placeIn (s : State) (t fm fv : Nat) (e : TdEntry) : Option State :=
  let w := tdRows (s.f F.TRN_TBL_CFG_WIDTH t)
  (s.placeRow w e.band (groupRows w (s.facetGroup t fm fv))).map fun ru => ru.2.putEntry t ru.1 e

/-- Place an entry in its group, adding a block where it has no row. -/
def State.placeOrAdd (s : State) (t fm fv : Nat) (e : TdEntry) (add : State → Option State) : Option State :=
  match s.placeIn t fm fv e with
  | some u => some u
  | none => (add s).bind fun u => u.placeIn t fm fv e

/-- Place an entry in the deep region. -/
def State.placeDeep (s : State) (t : Nat) (e : TdEntry) : Option State :=
  let fv := s.facet t e.value
  s.placeOrAdd t (facetTop (s.f F.TRN_TBL_CFG_FACET_BITS t)) fv e fun u => u.addDeep t fv

/-- Place an entry in the shallow region: in its facet group, after the region is laid out with fewer facet bits where the
entry leaves some open, or where no block is free. -/
def State.placeShallow (s : State) (t : Nat) (e : TdEntry) : Option State :=
  let have0 := s.shallowMask t e
  let fm := have0 &&& s.facet t e.mask
  (if fm = have0 then some s else s.relayShallow t fm).bind fun u =>
    let fv := s.facet t e.value
    match u.placeOrAdd t fm (fv &&& fm) e fun v => v.addShallow t fm (fv &&& fm) with
    | some v => some v
    | none => if fm = 0 then none
      else (u.relayShallow t 0).bind fun v => v.placeOrAdd t 0 0 e fun x => x.addShallow t 0 0

/-- An entry that stands in the shallow region comes before one of the deep region that overlaps it: the order of R157 asks
the deep one to follow it (log entry 91). -/
def State.outOfOrder (s : State) (t : Nat) : Option Nat :=
  let sh := (s.entriesIn (s.usedBlocks t false)).map (s.entryAt t)
  (s.entriesIn (s.usedBlocks t true)).find? fun r =>
    let d := s.entryAt t r
    sh.any fun x => decide (d.band < x.band) && x.overlaps d

/-- Deep entries of an ACL table that a shallow one must precede move to the shallow region. -/
def State.settleOrder (t : Nat) : Nat → State → Option State
  | 0, s => some s
  | n + 1, s =>
    match s.outOfOrder t with
    | none => some s
    | some r => ((s.tdClear r).placeShallow t (s.entryAt t r)).bind fun u => State.settleOrder t n u

/-- The managed entry with a VALUE, MASK and band. -/
def State.tdFind (s : State) (t L value mask : Nat) : Option Nat :=
  let w := tdRows (s.f F.TRN_TBL_CFG_WIDTH t)
  (s.trn.rows.find? fun kv => kv.2.valid && kv.1 % w == 0 && s.rowTable kv.1 == some t &&
    mgetD s.trn.bands kv.1 0 == L &&
    (let vm := s.entryVM kv.1 w
     vm.2 == mask && (vm.1 &&& mask) == (value &&& mask))).map (·.1)

/-- Place a managed entry (R157 to R159): its first row, or none where the table has no room. -/
def State.tdPlace (s : State) (t L value mask result : Nat) : Option (Nat × State) :=
  let e : TdEntry := ⟨L, value, mask, result⟩
  let placed := if s.deepEntry t mask then s.placeDeep t e else s.placeShallow t e
  let ordered := if s.fb F.TRN_TBL_CFG_KIND t then placed.bind fun u => State.settleOrder t (u.trn.rows.length) u else placed
  ordered.bind fun u => (u.tdFind t L value mask).map fun r => (r, u)

end Sys2Proof.Machine
end

