-- ==== Sys2Proof/Machine/Operands.lean ====
section
/-! DEFINITION. What an engine thread reads and writes (chapter 8): its registers, the thread memory map of Table 8-2, the
metadata block and ingress record, and its program counter. -/
namespace Sys2Proof.Machine

/-- A thread by its global number (R171). -/
def State.th (s : State) (n : Nat) : Thread := mgetD s.ppe.threads n {}
/-- Store a thread. -/
def State.setTh (s : State) (n : Nat) (t : Thread) : State :=
  { s with ppe := { s.ppe with threads := msetD s.ppe.threads n {} t } }

/-- The slice of a thread number. -/
def thSlice (n : Nat) : Nat := n / 512
/-- The cluster of the device (4 × slice + cluster) of a thread number. -/
def thCluster (n : Nat) : Nat := n / 128
/-- The engine number of a thread number. -/
def thEngine (n : Nat) : Nat := n / 8

/-! ### Registers (R181) -/

/-- A register: w0 reads as zero; one not written since the thread's start is a free value. -/
def Thread.reg (t : Thread) (r : BitVec 5) : W64 :=
  if r = 0 then 0 else match mget t.regs r.toNat with | some v => v | none => Config.freeWord (t.seed + r.toNat)

/-- Write a register; writes to w0 are discarded. -/
def Thread.setReg (t : Thread) (r : BitVec 5) (v : W64) : Thread :=
  if r = 0 then t else { t with regs := mset t.regs r.toNat v }

/-! ### Program (R196) -/

/-- The key of a slice's bank. -/
def progBank (sl bank : Nat) : Nat := sl * 2 + bank
/-- The instruction at an index of a bank. -/
def State.progWord (s : State) (sl bank pc : Nat) : W32 := mgetD s.ppe.prog (progBank sl bank * 65536 + pc) 0
/-- The program length of a bank. -/
def State.progLen (s : State) (sl bank : Nat) : Nat := mgetD s.ppe.plen (progBank sl bank) 0

/-! ### Thread memory (R175 to R178) -/

/-- Why an access faults (Table 8-7). -/
inductive MemFault where
  | addr | roWrite | align | edit
  deriving DecidableEq, Repr

/-- Fault codes of Table 8-7. -/
def MemFault.code : MemFault → Nat
  | .addr => 2 | .roWrite => 3 | .align => 4 | .edit => 7

/-- The entry pica of a thread's packet (R144): of its admission, or for an injected frame of its acceptance. -/
def Thread.entryPica (t : Thread) : Nat :=
  match t.frame with
  | some f => if f.inject.isSome then f.entered else t.adm
  | none => t.adm

/-- Metadata row r: rows 4 to 7 hold the frame facts (Table 8-3). -/
def Thread.mdRow (t : Thread) (n r : Nat) : W64 :=
  match t.frame with
  | none => t.md.getD r 0
  | some f =>
    match r with
    | 4 => BitVec.ofNat 64 (f.port * 2 ^ 57 + b2n f.inject.isSome * 2 ^ 55 + t.bytes.length % 65536 * 2 ^ 32
        + t.entry * 2 ^ 28 + n)
    | 5 => BitVec.ofNat 64 t.entryPica
    | 6 => BitVec.ofNat 64 (f.sec * 2 ^ 16)
    | 7 => BitVec.ofNat 64 (f.ns * 2 ^ 32)
    | _ => t.md.getD r 0

/-- Byte k of a 64-bit row, most significant first. -/
def rowByte (w : W64) (k : Nat) : Byte := BitVec.ofNat 8 (w.toNat / 2 ^ (56 - 8 * k))

/-- A 64-bit row with byte k replaced. -/
def putRowByte (w : W64) (k : Nat) (b : Byte) : W64 :=
  let sh := 2 ^ (56 - 8 * k)
  BitVec.ofNat 64 (w.toNat - w.toNat / sh % 256 * sh + b.toNat * sh)

/-- A byte of the thread-local areas (addresses below 0x400). -/
def Thread.byteAt (t : Thread) (n a : Nat) : Byte :=
  if a < 0x200 then t.bytes.getD a 0
  else if a < 0x280 then rowByte (t.mdRow n ((a - 0x200) / 8)) (a % 8)
  else if a < 0x300 then t.scratch.getD (a - 0x280) 0
  else rowByte (t.ing.getD ((a - 0x300) / 8) 0) (a % 8)

/-- A thread-local address is read-only: metadata rows 4 to 7 and the ingress record. -/
def localRo (a : Nat) : Bool := (0x220 ≤ a && a < 0x240) || 0x300 ≤ a

/-- Store a byte to a writable thread-local address. -/
def Thread.putByte (t : Thread) (a : Nat) (b : Byte) : Thread :=
  if a < 0x200 then { t with bytes := t.bytes.set a b }
  else if a < 0x280 then { t with md := t.md.set ((a - 0x200) / 8) (putRowByte (t.md.getD ((a - 0x200) / 8) 0) (a % 8) b) }
  else { t with scratch := t.scratch.set (a - 0x280) b }

/-- A word of cluster memory: replicated below word 57,344, local above it. -/
def State.clusterWord (s : State) (cl w : Nat) : W64 :=
  if w < 57344 then mgetD s.ppe.crep w 0 else mgetD s.ppe.cloc (cl * 8192 + (w - 57344)) 0

/-- Store a word of a cluster's local memory. -/
def State.setLocal (s : State) (cl w : Nat) (v : W64) : State :=
  { s with ppe := { s.ppe with cloc := msetD s.ppe.cloc (cl * 8192 + (w - 57344)) 0 v } }

/-- A load of n bytes at address a (R175, R176). -/
def State.load (s : State) (th : Nat) (t : Thread) (a n : Nat) : Except MemFault W64 :=
  if a + n ≤ 0x400 then .ok (BitVec.ofNat 64 (beNat ((List.range n).map fun i => t.byteAt th (a + i))))
  else if 0x100000 ≤ a ∧ a < 0x180000 then
    if a % n ≠ 0 then .error .align
    else
      let w := (s.clusterWord (thCluster th) ((a - 0x100000) / 8)).toNat
      .ok (BitVec.ofNat 64 (w / 2 ^ (8 * (8 - a % 8 - n)) % 2 ^ (8 * n)))
  else .error .addr

/-- A store of the low n bytes of a value at address a: the thread and the state after it (R175, R176). -/
def State.store (s : State) (th : Nat) (t : Thread) (a n : Nat) (v : W64) : Except MemFault (Thread × State) :=
  let b := beBytes n v.toNat
  if a + n ≤ 0x400 then
    let as := (List.range n).map fun i => a + i
    if as.any localRo then .error .roWrite
    else if as.any fun x => x < 0x200 && decide (t.bytes.length ≤ x) then .error .edit
    else .ok ((as.zip b).foldl (fun u ab => u.putByte ab.1 ab.2) t, s)
  else if 0x100000 ≤ a ∧ a < 0x180000 then
    if a < 0x170000 then .error .roWrite
    else if a % n ≠ 0 then .error .align
    else
      let w := (a - 0x100000) / 8
      let old := s.clusterWord (thCluster th) w
      let new := (b.zipIdx).foldl (fun u bi => putRowByte u (a % 8 + bi.2) bi.1) old
      .ok (t, s.setLocal (thCluster th) w new)
  else .error .addr

/-! ### Immediates -/

/-- A sign-extended 16-bit immediate. -/
def sx16 (v : W16) : W64 := v.signExtend 64
/-- A zero-extended 16-bit immediate. -/
def zx16 (v : W16) : W64 := v.zeroExtend 64
/-- A flag as a register value. -/
def flagW (b : Bool) : W64 := if b then 1 else 0
/-- The address of an M-format access. -/
def Thread.addr (t : Thread) (rs1 : BitVec 5) (off : W16) : Nat := (t.reg rs1 + sx16 off).toNat

/-- The bits POS + LENM1 to POS of a register, zero-extended; bits above 63 read 0. -/
def extBits (v : W64) (pos lenm1 : BitVec 6) : W64 :=
  BitVec.ofNat 64 (v.toNat / 2 ^ pos.toNat % 2 ^ (lenm1.toNat + 1))

/-- A register with its bit field replaced; bits above 63 are not written. -/
def insBits (d v : W64) (pos lenm1 : BitVec 6) : W64 :=
  let m : Nat := (2 ^ (lenm1.toNat + 1) - 1) * 2 ^ pos.toNat
  (d &&& ~~~(BitVec.ofNat 64 m)) ||| (BitVec.ofNat 64 (v.toNat * 2 ^ pos.toNat) &&& BitVec.ofNat 64 m)

/-- The quarter of a register that LIH writes. -/
def lihBits (d : W64) (h : Nat) (imm : W16) : W64 :=
  (d &&& ~~~(BitVec.ofNat 64 (0xFFFF * 2 ^ (16 * h)))) ||| BitVec.ofNat 64 (imm.toNat * 2 ^ (16 * h))

/-- The 16-bit ones'-complement sum with end-around carry. -/
def csum16 (a b : W64) : W64 :=
  let x := a.toNat % 65536 + b.toNat % 65536
  BitVec.ofNat 64 (x % 65536 + x / 65536)

/-- One bit of the reflected CRC-32C. -/
def crc32cBit (c : Nat) : Nat := if bit c 0 then c / 2 ^^^ 0x82F63B78 else c / 2
/-- CRC-32C over bytes from an initial value (log entry 20). -/
def crc32c (init : Nat) (l : List Byte) : Nat :=
  l.foldl (fun c b => (List.range 8).foldl (fun c _ => crc32cBit c) (c ^^^ b.toNat)) init

end Sys2Proof.Machine
end

