-- ==== Sys2Proof/Machine/Engine.lean ====
section
/-! DEFINITION. Packet engines (chapter 8): admission, classification, the instructions, lookups, faults, program banks and
performance counters. -/
namespace Sys2Proof.Machine

/-! ### Performance counters (R198 to R200) -/

/-- A sample enters its cluster's FIFO (R200). -/
def State.pcSample (s : State) (k : Nat) (x : PcSample) : State :=
  let q := mgetD s.ppe.samples k []
  if 16 ≤ q.length then s.setF F.PPE_PC_STATUS_SAMPLE_LOST 1 (k / 4) (k % 4)
  else
    ({ s with ppe := { s.ppe with samples := mset s.ppe.samples k (q ++ [x]) } }.setF F.PPE_PC_STATUS_SAMPLES
      (q.length + 1) (k / 4) (k % 4)).raise (416 + k)

/-- A counter wraps (R199, R200): counter 8 is the cycle counter. -/
def State.pcWrap (s : State) (k n : Nat) (x : PcSample) : State :=
  if n = 8 then (s.setF F.PPE_PC_CYCLE_OVF 1 (k / 4) (k % 4)).raise (384 + k)
  else
    let s1 := (s.setF F.PPE_PC_VAL_OVF 1 (k / 4) (k % 4) n).raise (384 + k)
    if s1.fb F.PPE_PC_CFG_SAMPLE (k / 4) (k % 4) n then s1.pcSample k x else s1

/-- The sample of a wrap of counter n on an engine: it names an instruction that the engine issues 0 to 12 instructions later,
so its thread and PC are free (R200, log entry 21). -/
def State.pcSkid (s : State) (engine n : Nat) : PcSample × State :=
  let x := s.fresh
  (⟨x.1.toNat % 65536, engine % 16, x.1.toNat / 65536 % 8, n⟩, x.2)

/-- Add c to programmable counter n of cluster k, for an event of an engine. -/
def State.pcAdd (s : State) (k n c engine : Nat) : State :=
  let v := s.f F.PPE_PC_VAL_VALUE (k / 4) (k % 4) n + c
  let s1 := s.setF F.PPE_PC_VAL_VALUE (v % 2 ^ 48) (k / 4) (k % 4) n
  if 2 ^ 48 ≤ v then (let x := s1.pcSkid engine n; x.2.pcWrap k n x.1) else s1

/-- Event ev of Table 8-10 happens on the engine of a thread: every enabled counter of the cluster that follows it advances.
In edge mode it does so where the event did not happen in the cycle before, which no command says: a free value decides
(R198, log entry 21). -/
def State.perf (s : State) (ev th : Nat) : State :=
  if s.ppe.frozen then s
  else
    let k := thCluster th
    (List.range 8).foldl (fun u n =>
      if u.fb F.PPE_PC_CFG_EN (k / 4) (k % 4) n && u.f F.PPE_PC_CFG_EVENT (k / 4) (k % 4) n == ev &&
          bit (u.f F.PPE_PC_CFG_ENGINES (k / 4) (k % 4) n) (thEngine th % 16)
      then
        if u.fb F.PPE_PC_CFG_MODE (k / 4) (k % 4) n then (let x := u.fresh; x.2.pcAdd k n (x.1.toNat % 2) (thEngine th))
        else u.pcAdd k n 1 (thEngine th)
      else u) s

/-- The most that an event counted by cycles can count on one engine in one cycle (Table 8-10): 0x02 and 0x09 with its two
issue slots, 0x03 once, 0x04, 0x05 and 0x12 with its eight threads; of 0x10 the spec gives no bound and the model takes 16
(log entry 21). -/
def cycleEvent (ev : Nat) : Nat :=
  match ev with
  | 0x02 => 2 | 0x03 => 1 | 0x04 => 8 | 0x05 => 8 | 0x09 => 2 | 0x10 => 16 | 0x12 => 8 | _ => 0

/-- An engine had a thread that was not FREE in this pica. -/
def State.engActive (s : State) (e : Nat) : Bool :=
  s.ppe.freed.contains e || s.ppe.threads.any fun kv => thEngine kv.1 == e && kv.2.state != .free

/-- The engines of a cluster that counter n sums over and on which its event can happen: but for a memory error it asks for a
thread that is not FREE (R198). -/
def State.pcEngines (s : State) (k n : Nat) : List Nat :=
  (List.range 16).filter fun e => bit (s.f F.PPE_PC_CFG_ENGINES (k / 4) (k % 4) n) e &&
    (s.f F.PPE_PC_CFG_EVENT (k / 4) (k % 4) n == 0x10 || s.engActive (k * 16 + e))

/-- The most that counter n of a cluster can count in one cycle of an event counted by cycles. -/
def State.pcMost (s : State) (k n : Nat) : Nat :=
  cycleEvent (s.f F.PPE_PC_CFG_EVENT (k / 4) (k % 4) n) * (s.pcEngines k n).length

/-- A counter that follows an event counted by cycles advances over a pica by a free count within what its engines allow, in
edge mode by at most one in two cycles, on a free choice of its engines (R198, R200, log entry 21). -/
def State.pcCycles (s : State) (k n : Nat) : State :=
  let most := s.pcMost k n
  if s.fb F.PPE_PC_CFG_EN (k / 4) (k % 4) n && most != 0 then
    let x := s.fresh
    let l := s.pcEngines k n
    let c := x.1.toNat % ((if s.fb F.PPE_PC_CFG_MODE (k / 4) (k % 4) n then 16 else 32 * most) + 1)
    x.2.pcAdd k n c (l.getD (x.1.toNat / 2 ^ 60 % l.length) 0)
  else s

/-- The cycle counter of a cluster counts the 32 fclk cycles of a pica (R199). -/
def State.pcLap (s : State) (k : Nat) (x : PcSample) : State :=
  let v := s.f F.PPE_PC_CYCLE_CYCLES (k / 4) (k % 4) + 32
  let s1 := s.setF F.PPE_PC_CYCLE_CYCLES (v % 2 ^ 48) (k / 4) (k % 4)
  if 2 ^ 48 ≤ v then s1.pcWrap k 8 x else s1

/-- The counters of a pica on every cluster of a slice whose clock runs (R198, R199, Table 16-4). -/
def State.pcPica (s : State) : State :=
  let s1 := if s.ppe.frozen then s
    else
      (List.range 32).foldl (fun u k =>
        if u.gated (k / 4) then u
        else
          let u1 := if u.ppe.lapped.contains k then u else u.pcLap k ⟨0, 0, 0, 0⟩
          (List.range 8).foldl (fun w n => w.pcCycles k n) u1) s
  { s1 with ppe := { s1.ppe with freed := [], lapped := [] } }

/-- The copies that a SNAPSHOT makes (R202). -/
def State.pcCopy (s : State) : State :=
  ((List.range 32).foldl (fun u k =>
      let u1 := u.wr .PPE_PC_SNAP (k / 4) (k % 4) 0 (u.rd .PPE_PC_CYCLE (k / 4) (k % 4) 0)
      (List.range 8).foldl (fun v n => v.wr .PPE_PC_SNAP (k / 4) (k % 4) (n + 1) (v.rd .PPE_PC_VAL (k / 4) (k % 4) n)) u1)
    s).setF F.PPE_PC_GLOBAL_SNAP_DONE 1

/-- What a pica boundary does to the counters: a SNAPSHOT asked for is taken, a FREEZE written takes effect, and the cycle
counters advance (R202, Table 8-11). -/
def State.pcBoundary (s : State) : State :=
  let s1 := s.pcPica
  let s2 := match s1.ppe.freezeAsk with
    | some b => { s1 with ppe := { s1.ppe with frozen := b, freezeAsk := none } }
    | none => s1
  if s2.ppe.snapAsk then { s2 with ppe := { s2.ppe with snapAsk := false } }.pcCopy else s2

/-- Counter n of a cluster can wrap in this pica's cycles: it is not frozen, its slice's clock runs, and what is left of the
pica's count reaches 2^48. A counter of commands' events wraps with them. -/
def State.pcCanWrap (s : State) (k n : Nat) : Bool :=
  !s.ppe.frozen && !s.gated (k / 4) &&
  (if n = 8 then !s.ppe.lapped.contains k && decide (2 ^ 48 ≤ s.f F.PPE_PC_CYCLE_CYCLES (k / 4) (k % 4) + 32)
   else s.fb F.PPE_PC_CFG_EN (k / 4) (k % 4) n &&
     decide (2 ^ 48 ≤ s.f F.PPE_PC_VAL_VALUE (k / 4) (k % 4) n + 32 * s.pcMost k n))

/-- Meaning of PERF_COUNTER_WRAP: a counter wraps within the pica (R199, R200); the cycle counter counts its 32 cycles with
it. The sample names an instruction of an engine of the counter within the skid of R200 (log entry 21). -/
def execPerfCounterWrap (cluster : BitVec 5) (counter : Fin 9) (engine : BitVec 4) (thread : BitVec 3) (pc : W16)
    (s : State) : Ans :=
  s.onCore fun s =>
    let k := cluster.toNat
    let n := counter.val
    let x : PcSample := ⟨pc.toNat, engine.toNat, thread.toNat, n⟩
    if !s.pcCanWrap k n then s
    else if n = 8 then { s with ppe := { s.ppe with lapped := k :: s.ppe.lapped } }.pcLap k x
    else if (s.pcEngines k n).contains engine.toNat then (s.setF F.PPE_PC_VAL_VALUE 0 (k / 4) (k % 4) n).pcWrap k n x
    else s

/-- A read of PPE_PC_SAMPLE's low word (R200): the low and high words of the oldest sample, which is removed. -/
def State.sampleRead (s : State) (k : Nat) : W32 × W32 × State :=
  match mgetD s.ppe.samples k [] with
  | [] => (0, 0, s)
  | x :: rest =>
    let s1 := { s with ppe := { s.ppe with samples := msetD s.ppe.samples k [] rest } }
    (0x80000000, BitVec.ofNat 32 (x.pc * 2 ^ 16 + x.engine * 2 ^ 12 + x.thread * 2 ^ 9 + x.counter * 2 ^ 6),
      s1.setF F.PPE_PC_STATUS_SAMPLES rest.length (k / 4) (k % 4))

/-! ### The reorder buffer's entries -/

/-- The reorder buffer of a slice, oldest entry first. -/
def State.robOf (s : State) (sl : Nat) : List RobEntry := mgetD s.ppe.rob sl []

/-- Store a slice's reorder buffer, with ROB_USED. -/
def State.setRob (s : State) (sl : Nat) (l : List RobEntry) : State :=
  ({ s with ppe := { s.ppe with rob := msetD s.ppe.rob sl [] l } }).setF F.PPE_ROB_STATUS_ROB_USED l.length sl

/-- Change one reorder entry. -/
def State.robUpd (s : State) (sl id : Nat) (g : RobEntry → RobEntry) : State :=
  s.setRob sl ((s.robOf sl).map fun e => if e.id = id then g e else e)

/-- THREADS_BUSY of a slice. -/
def State.busyCount (s : State) (sl : Nat) : State :=
  s.setF F.PPE_ROB_STATUS_THREADS_BUSY
    ((s.ppe.threads.filter fun kv => thSlice kv.1 == sl && kv.2.state != .free).length) sl

/-- PENDING of a swapped slice clears once no thread admitted before the swap runs (R196). -/
def State.settleSwap (s : State) : State :=
  (List.range 8).foldl (fun u sl =>
    if bit u.ppe.swapping sl && !(u.ppe.threads.any fun kv => thSlice kv.1 == sl && kv.2.state != .free &&
        kv.2.state != .ending && kv.2.bank != b2n (bit (u.f F.PPE_BANK_STATUS_ACTIVE) sl))
    then { u with ppe := { u.ppe with swapping := putBit u.ppe.swapping sl false } }.setF F.PPE_BANK_STATUS_PENDING
      (putBit (u.f F.PPE_BANK_STATUS_PENDING) sl false)
    else u) s

/-- A thread's packet ends: the thread is ENDING and its reorder entry takes the change. -/
def State.endThread (s : State) (n : Nat) (t : Thread) (g : RobEntry → RobEntry) : State :=
  ((s.setTh n { t with state := .ending, pend := [], outst := 0 }).robUpd (thSlice n) t.rob fun e =>
    { g e with ended := true }).settleSwap

/-- A packet ends as a drop under a reason code (R16, R189). -/
def State.endDrop (s : State) (n : Nat) (t : Thread) (code : Nat) : State :=
  (s.drop code t.bytes.length ((t.frame.map (·.port)).getD 0)).endThread n t id

/-! ### Faults and retirement (R194, R195) -/

/-- A thread breaks a rule: it stops, its packet drops and the fault is logged (R194). -/
def State.engFault (s : State) (n : Nat) (t : Thread) (code : Nat) : State :=
  let s1 := s.wr .PPE_FAULT_LOG 0 0 0 (BitVec.ofNat 64 (code * 2 ^ 59 + n * 2 ^ 44 + t.pc * 2 ^ 16))
  let s2 := (((s1.sat F.PPE_SLICE_STAT_FAULTS 1 (thSlice n)).setF F.PPE_STATUS_FAULT 1).raiseD (360 + thSlice n)
    (s1.rd .PPE_FAULT_LOG 0 0 0)).perf 0xF n
  s2.endDrop n t (if code = 8 then 0x052 else 0x051)

/-- Retire an engine (R195): its running packets drop under ENG_HW_ERR. -/
def State.engRetire (s : State) (e : Nat) : State :=
  let sl := e / 64
  let m := s.f F.PPE_SLICE_RETIRED_ENGINES sl
  if bit m (e % 64) then s
  else
    let s1 := ((s.setF F.PPE_SLICE_RETIRED_ENGINES (putBit m (e % 64) true) sl).setF F.PPE_STATUS_RETIRED 1).raiseD 368
      (location 3 0 sl (e % 64 / 16) (e % 16) naMacro naCell)
    (List.range 8).foldl (fun u i =>
      let n := e * 8 + i
      let t := u.th n
      if t.state = .free ∨ t.state = .ending then u else u.endDrop n t 0x052) s1

/-- An uncorrectable word read by a thread (R195): memory kind 0 to 3. -/
def State.engHwErr (s : State) (n : Nat) (t : Thread) (m : Nat) : State :=
  let e := thEngine n
  let loc := location 2 0 (thSlice n) (thCluster n % 4) (if m = 3 then 0xFF else e % 16) m naCell
  let l := s.pica.num :: mgetD s.ppe.errs e []
  let s1 := ((s.wr .PPE_ERR_LOG 0 0 0 loc).setF F.PPE_STATUS_HW_ERR 1).engFault n t 8
  let s2 := { s1 with ppe := { s1.ppe with errs := mset s1.ppe.errs e l } }
  if reached l s.pica.num (s.f F.PPE_CTRL_RETIRE_THR) then s2.engRetire e else s2

/-- Move a thread to an instruction; past the program's end it faults PC_RANGE there (R194, log entry 22). -/
def State.goto (s : State) (n : Nat) (t : Thread) (pc : Nat) : State :=
  let t1 := { t with pc := pc % 65536, again := false }
  if t1.pc < s.progLen (thSlice n) t1.bank then s.setTh n t1 else s.engFault n t1 1

/-! ### Issue (R180, R187) -/

/-- Thread q issues instruction i, which uses some registers: nothing happens unless the thread is READY with i at its PC;
a word that reads uncorrectably faults HW; a pending register puts the thread to sleep; else the instruction acts. -/
def State.issue (s : State) (q : Issue) (i : Instr) (uses : List (BitVec 5)) (f : Thread → State → State) : State :=
  let n := q.thread.toNat
  let t := s.th n
  if t.state = .ready ∧ engDecode q (s.progWord (thSlice n) t.bank t.pc) = some i then
    match q.bad with
    | some m => s.engHwErr n t m.val
    | none =>
      match uses.find? fun r => t.pend.contains r.toNat with
      | some r => s.setTh n { t with state := .sleeping (.reg r.toNat) }
      | none => f t (if t.again then s else s.perf 1 n)
  else s

/-- An instruction that computes one register from the thread (R183). -/
def State.alu (s : State) (q : Issue) (i : Instr) (rd : BitVec 5) (uses : List (BitVec 5)) (v : Thread → W64) : Ans :=
  s.onCore fun s => s.issue q i (rd :: uses) fun t s => s.goto q.thread.toNat (t.setReg rd (v t)) (t.pc + 1)

/-- A conditional branch (R183). -/
def State.branch (s : State) (q : Issue) (i : Instr) (a b : BitVec 5) (off : W16) (c : W64 → W64 → Bool) : Ans :=
  s.onCore fun s => s.issue q i [a, b] fun t s =>
    if c (t.reg a) (t.reg b) then (s.perf 0xA q.thread.toNat).goto q.thread.toNat t (t.pc + off.toNat)
    else s.goto q.thread.toNat t (t.pc + 1)

/-- A load of n bytes (R176). -/
def State.loadN (s : State) (q : Issue) (i : Instr) (rd rs1 : BitVec 5) (off : W16) (n : Nat) : Ans :=
  s.onCore fun s => s.issue q i [rd, rs1] fun t s =>
    match s.load q.thread.toNat t (t.addr rs1 off) n with
    | .ok v => s.goto q.thread.toNat (t.setReg rd v) (t.pc + 1)
    | .error e => s.engFault q.thread.toNat t e.code

/-- A store of n bytes (R176). -/
def State.storeN (s : State) (q : Issue) (i : Instr) (rd rs1 : BitVec 5) (off : W16) (n : Nat) : Ans :=
  s.onCore fun s => s.issue q i [rd, rs1] fun t s =>
    match s.store q.thread.toNat t (t.addr rs1 off) n (t.reg rd) with
    | .ok ts => ts.2.goto q.thread.toNat ts.1 (t.pc + 1)
    | .error e => s.engFault q.thread.toNat t e.code

end Sys2Proof.Machine
end

