-- ==== Sys2Proof/Machine/Prog.lean ====
section
/-! DEFINITION. The meanings of the engine instructions that compute, branch, load and store (R176, R183). -/
namespace Sys2Proof.Machine

/-- Meaning of NOP, opcode 0x00 (R183). -/
def execEngineNop (q : Issue) (s : State) : Ans :=
  s.onCore fun s => s.issue q (.engineNop q) [] fun t s => s.goto q.thread.toNat t (t.pc + 1)

/-- Meaning of ADD: rd := rs1 + rs2 (R183). -/
def execAdd (q : Issue) (rd rs1 rs2 : BitVec 5) (s : State) : Ans :=
  s.alu q (.add q rd rs1 rs2) rd [rs1, rs2] fun t => t.reg rs1 + t.reg rs2

/-- Meaning of SUB: rd := rs1 - rs2 (R183). -/
def execSub (q : Issue) (rd rs1 rs2 : BitVec 5) (s : State) : Ans :=
  s.alu q (.sub q rd rs1 rs2) rd [rs1, rs2] fun t => t.reg rs1 - t.reg rs2

/-- Meaning of AND: rd := rs1 and rs2 (R183). -/
def execAnd (q : Issue) (rd rs1 rs2 : BitVec 5) (s : State) : Ans :=
  s.alu q (.and q rd rs1 rs2) rd [rs1, rs2] fun t => t.reg rs1 &&& t.reg rs2

/-- Meaning of OR: rd := rs1 or rs2 (R183). -/
def execOr (q : Issue) (rd rs1 rs2 : BitVec 5) (s : State) : Ans :=
  s.alu q (.or q rd rs1 rs2) rd [rs1, rs2] fun t => t.reg rs1 ||| t.reg rs2

/-- Meaning of XOR: rd := rs1 xor rs2 (R183). -/
def execXor (q : Issue) (rd rs1 rs2 : BitVec 5) (s : State) : Ans :=
  s.alu q (.xor q rd rs1 rs2) rd [rs1, rs2] fun t => t.reg rs1 ^^^ t.reg rs2

/-- Meaning of SHL: a left shift by rs2[5:0] (R183). -/
def execShl (q : Issue) (rd rs1 rs2 : BitVec 5) (s : State) : Ans :=
  s.alu q (.shl q rd rs1 rs2) rd [rs1, rs2] fun t => t.reg rs1 <<< ((t.reg rs2).toNat % 64)

/-- Meaning of SHR: a logical right shift by rs2[5:0] (R183). -/
def execShr (q : Issue) (rd rs1 rs2 : BitVec 5) (s : State) : Ans :=
  s.alu q (.shr q rd rs1 rs2) rd [rs1, rs2] fun t => t.reg rs1 >>> ((t.reg rs2).toNat % 64)

/-- Meaning of SAR: an arithmetic right shift by rs2[5:0] (R183). -/
def execSar (q : Issue) (rd rs1 rs2 : BitVec 5) (s : State) : Ans :=
  s.alu q (.sar q rd rs1 rs2) rd [rs1, rs2] fun t => (t.reg rs1).sshiftRight ((t.reg rs2).toNat % 64)

/-- Meaning of MUL: the low 64 bits of the product (R183). -/
def execMul (q : Issue) (rd rs1 rs2 : BitVec 5) (s : State) : Ans :=
  s.alu q (.mul q rd rs1 rs2) rd [rs1, rs2] fun t => t.reg rs1 * t.reg rs2

/-- Meaning of SLT: 1 if rs1 < rs2 signed, else 0 (R183). -/
def execSlt (q : Issue) (rd rs1 rs2 : BitVec 5) (s : State) : Ans :=
  s.alu q (.slt q rd rs1 rs2) rd [rs1, rs2] fun t => flagW ((t.reg rs1).slt (t.reg rs2))

/-- Meaning of SLTU: 1 if rs1 < rs2 unsigned, else 0 (R183). -/
def execSltu (q : Issue) (rd rs1 rs2 : BitVec 5) (s : State) : Ans :=
  s.alu q (.sltu q rd rs1 rs2) rd [rs1, rs2] fun t => flagW ((t.reg rs1).ult (t.reg rs2))

/-- Meaning of SEQ: 1 if rs1 = rs2, else 0 (R183). -/
def execSeq (q : Issue) (rd rs1 rs2 : BitVec 5) (s : State) : Ans :=
  s.alu q (.seq q rd rs1 rs2) rd [rs1, rs2] fun t => flagW (t.reg rs1 == t.reg rs2)

/-- Meaning of CSUM: the 16-bit ones'-complement sum (R183). -/
def execCsum (q : Issue) (rd rs1 rs2 : BitVec 5) (s : State) : Ans :=
  s.alu q (.csum q rd rs1 rs2) rd [rs1, rs2] fun t => csum16 (t.reg rs1) (t.reg rs2)

/-- Meaning of CRC: CRC-32C of the 8 bytes of rs1 with initial value rs2[31:0] (R183). -/
def execCrc (q : Issue) (rd rs1 rs2 : BitVec 5) (s : State) : Ans :=
  s.alu q (.crc q rd rs1 rs2) rd [rs1, rs2] fun t => BitVec.ofNat 64 (crc32c ((t.reg rs2).toNat % 2 ^ 32) (beBytes 8 (t.reg rs1).toNat))

/-- Meaning of CMOV: rd := rs1 if rs2 is not zero (R183). -/
def execCmov (q : Issue) (rd rs1 rs2 : BitVec 5) (s : State) : Ans :=
  s.alu q (.cmov q rd rs1 rs2) rd [rs1, rs2] fun t => if t.reg rs2 = 0 then t.reg rd else t.reg rs1

/-- Meaning of ADDI: rs1 plus the sign-extended immediate (R183). -/
def execAddi (q : Issue) (rd rs1 : BitVec 5) (imm : W16) (s : State) : Ans :=
  s.alu q (.addi q rd rs1 imm) rd [rs1] fun t => t.reg rs1 + sx16 imm

/-- Meaning of ANDI: rs1 and the zero-extended immediate (R183). -/
def execAndi (q : Issue) (rd rs1 : BitVec 5) (imm : W16) (s : State) : Ans :=
  s.alu q (.andi q rd rs1 imm) rd [rs1] fun t => t.reg rs1 &&& zx16 imm

/-- Meaning of ORI: rs1 or the zero-extended immediate (R183). -/
def execOri (q : Issue) (rd rs1 : BitVec 5) (imm : W16) (s : State) : Ans :=
  s.alu q (.ori q rd rs1 imm) rd [rs1] fun t => t.reg rs1 ||| zx16 imm

/-- Meaning of XORI: rs1 xor the zero-extended immediate (R183). -/
def execXori (q : Issue) (rd rs1 : BitVec 5) (imm : W16) (s : State) : Ans :=
  s.alu q (.xori q rd rs1 imm) rd [rs1] fun t => t.reg rs1 ^^^ zx16 imm

/-- Meaning of SHLI: a left shift by imm16[5:0] (R183). -/
def execShli (q : Issue) (rd rs1 : BitVec 5) (imm : W16) (s : State) : Ans :=
  s.alu q (.shli q rd rs1 imm) rd [rs1] fun t => t.reg rs1 <<< (imm.toNat % 64)

/-- Meaning of SHRI: a logical right shift by imm16[5:0] (R183). -/
def execShri (q : Issue) (rd rs1 : BitVec 5) (imm : W16) (s : State) : Ans :=
  s.alu q (.shri q rd rs1 imm) rd [rs1] fun t => t.reg rs1 >>> (imm.toNat % 64)

/-- Meaning of SARI: an arithmetic right shift by imm16[5:0] (R183). -/
def execSari (q : Issue) (rd rs1 : BitVec 5) (imm : W16) (s : State) : Ans :=
  s.alu q (.sari q rd rs1 imm) rd [rs1] fun t => (t.reg rs1).sshiftRight (imm.toNat % 64)

/-- Meaning of SLTI: 1 if rs1 < the sign-extended immediate signed (R183). -/
def execSlti (q : Issue) (rd rs1 : BitVec 5) (imm : W16) (s : State) : Ans :=
  s.alu q (.slti q rd rs1 imm) rd [rs1] fun t => flagW ((t.reg rs1).slt (sx16 imm))

/-- Meaning of SEQI: 1 if rs1 equals the sign-extended immediate (R183). -/
def execSeqi (q : Issue) (rd rs1 : BitVec 5) (imm : W16) (s : State) : Ans :=
  s.alu q (.seqi q rd rs1 imm) rd [rs1] fun t => flagW (t.reg rs1 == sx16 imm)

/-- Meaning of LIH: the quarter of rd that rs1 field [1:0] names becomes the immediate (R183); rs1 is no register here. -/
def execLih (q : Issue) (rd rs1 : BitVec 5) (imm : W16) (s : State) : Ans :=
  s.alu q (.lih q rd rs1 imm) rd [] fun t => lihBits (t.reg rd) (rs1.toNat % 4) imm

/-- Meaning of MOVI: the sign-extended immediate (R183). -/
def execMovi (q : Issue) (rd : BitVec 5) (imm : W16) (s : State) : Ans :=
  s.alu q (.movi q rd imm) rd [] fun _ => sx16 imm

/-- Meaning of EXT: a bit field of rs1 (R183). -/
def execExt (q : Issue) (rd rs1 : BitVec 5) (pos lenm1 : BitVec 6) (s : State) : Ans :=
  s.alu q (.ext q rd rs1 pos lenm1) rd [rs1] fun t => extBits (t.reg rs1) pos lenm1

/-- Meaning of INS: rs1's low bits into a bit field of rd (R183). -/
def execIns (q : Issue) (rd rs1 : BitVec 5) (pos lenm1 : BitVec 6) (s : State) : Ans :=
  s.alu q (.ins q rd rs1 pos lenm1) rd [rs1] fun t => insBits (t.reg rd) (t.reg rs1) pos lenm1

/-- Meaning of LD8: 1 bytes at rs1 + off16, big-endian, zero-extended (R176). -/
def execLd8 (q : Issue) (rd rs1 : BitVec 5) (off : W16) (s : State) : Ans :=
  s.loadN q (.ld8 q rd rs1 off) rd rs1 off 1

/-- Meaning of LD16: 2 bytes at rs1 + off16, big-endian, zero-extended (R176). -/
def execLd16 (q : Issue) (rd rs1 : BitVec 5) (off : W16) (s : State) : Ans :=
  s.loadN q (.ld16 q rd rs1 off) rd rs1 off 2

/-- Meaning of LD32: 4 bytes at rs1 + off16, big-endian, zero-extended (R176). -/
def execLd32 (q : Issue) (rd rs1 : BitVec 5) (off : W16) (s : State) : Ans :=
  s.loadN q (.ld32 q rd rs1 off) rd rs1 off 4

/-- Meaning of LD64: 8 bytes at rs1 + off16, big-endian, zero-extended (R176). -/
def execLd64 (q : Issue) (rd rs1 : BitVec 5) (off : W16) (s : State) : Ans :=
  s.loadN q (.ld64 q rd rs1 off) rd rs1 off 8

/-- Meaning of ST8: the low 1 bytes of rd to rs1 + off16 (R176). -/
def execSt8 (q : Issue) (rd rs1 : BitVec 5) (off : W16) (s : State) : Ans :=
  s.storeN q (.st8 q rd rs1 off) rd rs1 off 1

/-- Meaning of ST16: the low 2 bytes of rd to rs1 + off16 (R176). -/
def execSt16 (q : Issue) (rd rs1 : BitVec 5) (off : W16) (s : State) : Ans :=
  s.storeN q (.st16 q rd rs1 off) rd rs1 off 2

/-- Meaning of ST32: the low 4 bytes of rd to rs1 + off16 (R176). -/
def execSt32 (q : Issue) (rd rs1 : BitVec 5) (off : W16) (s : State) : Ans :=
  s.storeN q (.st32 q rd rs1 off) rd rs1 off 4

/-- Meaning of ST64: the low 8 bytes of rd to rs1 + off16 (R176). -/
def execSt64 (q : Issue) (rd rs1 : BitVec 5) (off : W16) (s : State) : Ans :=
  s.storeN q (.st64 q rd rs1 off) rd rs1 off 8

/-- Meaning of BEQ: branch when rs1 = rs2 (R183). -/
def execBeq (q : Issue) (rs1 rs2 : BitVec 5) (off : W16) (s : State) : Ans :=
  s.branch q (.beq q rs1 rs2 off) rs1 rs2 off fun a b => a == b

/-- Meaning of BNE: branch when rs1 differs from rs2 (R183). -/
def execBne (q : Issue) (rs1 rs2 : BitVec 5) (off : W16) (s : State) : Ans :=
  s.branch q (.bne q rs1 rs2 off) rs1 rs2 off fun a b => a != b

/-- Meaning of BLT: branch when rs1 < rs2 signed (R183). -/
def execBlt (q : Issue) (rs1 rs2 : BitVec 5) (off : W16) (s : State) : Ans :=
  s.branch q (.blt q rs1 rs2 off) rs1 rs2 off fun a b => a.slt b

/-- Meaning of BGE: branch when rs1 >= rs2 signed (R183). -/
def execBge (q : Issue) (rs1 rs2 : BitVec 5) (off : W16) (s : State) : Ans :=
  s.branch q (.bge q rs1 rs2 off) rs1 rs2 off fun a b => !a.slt b

/-- Meaning of BLTU: branch when rs1 < rs2 unsigned (R183). -/
def execBltu (q : Issue) (rs1 rs2 : BitVec 5) (off : W16) (s : State) : Ans :=
  s.branch q (.bltu q rs1 rs2 off) rs1 rs2 off fun a b => a.ult b

/-- Meaning of BGEU: branch when rs1 >= rs2 unsigned (R183). -/
def execBgeu (q : Issue) (rs1 rs2 : BitVec 5) (off : W16) (s : State) : Ans :=
  s.branch q (.bgeu q rs1 rs2 off) rs1 rs2 off fun a b => !a.ult b

/-- Meaning of JMP: PC := PC + off26 (R183). -/
def execJmp (q : Issue) (off : BitVec 26) (s : State) : Ans :=
  s.onCore fun s => s.issue q (.jmp q off) [] fun t s =>
    (s.perf 0xA q.thread.toNat).goto q.thread.toNat t (t.pc + off.toNat)

/-- Meaning of CALL: w31 := PC + 1; PC := PC + off26 (R181, R183). -/
def execCall (q : Issue) (off : BitVec 26) (s : State) : Ans :=
  s.onCore fun s => s.issue q (.call q off) [31] fun t s =>
    (s.perf 0xA q.thread.toNat).goto q.thread.toNat (t.setReg 31 (BitVec.ofNat 64 ((t.pc + 1) % 65536)))
      (t.pc + off.toNat)

/-- Meaning of JR: PC := rs1[15:0] (R183). -/
def execJr (q : Issue) (rs1 : BitVec 5) (s : State) : Ans :=
  s.onCore fun s => s.issue q (.jr q rs1) [rs1] fun t s =>
    (s.perf 0xA q.thread.toNat).goto q.thread.toNat t ((t.reg rs1).toNat % 65536)

/-- Meaning of ATADD: rd := the word of local cluster memory at rs1, which becomes itself plus rs2 (R183, R194). -/
def execAtadd (q : Issue) (rd rs1 rs2 : BitVec 5) (s : State) : Ans :=
  s.onCore fun s => s.issue q (.atadd q rd rs1 rs2) [rd, rs1, rs2] fun t s =>
    let n := q.thread.toNat
    let a := (t.reg rs1).toNat
    if a < 0x170000 ∨ 0x180000 ≤ a ∨ a % 8 ≠ 0 then s.engFault n t 5
    else
      let w := (a - 0x100000) / 8
      let old := s.clusterWord (thCluster n) w
      ((s.perf 0x11 n).setLocal (thCluster n) w (old + t.reg rs2)).goto n (t.setReg rd old) (t.pc + 1)

end Sys2Proof.Machine
end

