-- ==== Sys2Proof/Machine/Pipe.lean ====
section
/-! DEFINITION. A packet on the forwarding die (chapters 5 and 8): admission and parsing, classification, loading, lookups,
edits, copies, the terminal instructions, the deadline and the program banks. -/
namespace Sys2Proof.Machine

/-! ### Outputs of a packet -/

/-- An output that carries a packet's bytes with `skip` body bytes seen through HDEL (R212). -/
def Thread.output (t : Thread) (kind : PktKind) (bytes : List Byte) (skip : Nat) : Pkt :=
  let f := t.frame
  { kind := kind, bytes := bytes, body := t.admLen - 512 - skip, port := (f.map (·.port)).getD 0, entered := t.entryPica
    rxSec := (f.map (·.sec)).getD 0, rxNs := (f.map (·.ns)).getD 0, rxSa := (f.map (·.rxSa)).getD 0
    user := t.word % 2 ^ 32 }

/-- A classifier or program copy, which the punt header marks (Table 15-11). -/
def Thread.copyOut (t : Thread) (kind : PktKind) (bytes : List Byte) (skip : Nat) : Pkt :=
  { t.output kind bytes skip with copy := true }

/-- A mirror copy through session m: truncated, with the body bytes it still references (R122, R212). -/
def State.mirrorCopy (s : State) (t : Thread) (m : Nat) (bytes : List Byte) (skip : Nat) : Pkt :=
  let p := t.copyOut .mirror (s.mirrorBytes m bytes) skip
  let head := bytes.length - p.body
  { p with body := p.bytes.length - head, qid := s.f F.CLS_MIR_CFG_QID m }

/-- Commit a mirror copy under sampling and EN: the copy if one is made, and the state (R122). -/
def State.mirrorAct (s : State) (sl : Nat) (t : Thread) (m : Nat) (bytes : List Byte) (skip : Nat) : Option Pkt × State :=
  let r := s.mirrorSample sl m
  if !r.1 then (none, r.2)
  else if s.fb F.CLS_MIR_CFG_EN m then (some (s.mirrorCopy t m bytes skip), r.2)
  else (none, r.2.sat F.CLS_STATUS_MIR_SKIP 1 sl)

/-- Add an output that leaves without order to a packet's reorder entry. -/
def State.addOut (s : State) (n : Nat) (t : Thread) (p : Pkt) : State :=
  s.robUpd (thSlice n) t.rob fun e => { e with outs := e.outs ++ [p] }

/-! ### Admission (R172) -/

/-- A thread that can take a head: free, on an engine that is not retired. -/
def State.thFree (s : State) (n : Nat) : Bool :=
  (s.th n).state == .free && !bit (s.f F.PPE_SLICE_RETIRED_ENGINES (thSlice n)) (thEngine n % 64)

/-- The engine of a cluster with the fewest busy threads among those with a free one. -/
def State.pickEngine (s : State) (e0 : Nat) : Option Nat :=
  ((List.range 16).filterMap fun i =>
    let e := e0 + i
    let fr := ((List.range 8).filter fun j => s.thFree (e * 8 + j)).length
    if fr = 0 then none else some (e, fr)).foldl (fun (a : Option (Nat × Nat)) x => match a with
      | none => some x
      | some y => if y.2 < x.2 then some x else some y) none |>.map (·.1)

/-- The thread R172 chooses in a slice. -/
def State.pickThread (s : State) (sl : Nat) : Option Nat :=
  let last := mgetD s.ppe.lastCl sl 3
  ([1, 2, 3, 4].findSome? fun d => s.pickEngine (sl * 64 + (last + d) % 4 * 16)).bind fun e =>
    ((List.range 8).map (e * 8 + ·)).find? s.thFree

/-- The active program bank of a slice. -/
def State.ppeBank (s : State) (sl : Nat) : Nat := b2n (bit (s.f F.PPE_BANK_STATUS_ACTIVE) sl)

/-- The profile of a frame's local port. -/
def State.profileOf (s : State) (sl lp : Nat) : Nat := s.f F.CLS_PORT_CFG_PROFILE sl lp

/-- The searches of a parsed frame's profile (R118). -/
def State.searchesOf (s : State) (f : RxFrame) (o : ParseOut) (m : PatternOut) : List (Nat × Nat × Nat × Nat) :=
  let sl := f.port / 16
  let k := s.profileOf sl (f.port % 16)
  let key := s.profileKey sl k (s.keySource f o m)
  [0, 1].filterMap fun n => (s.profileSearch sl k n key).map fun x => (n, x.1, x.2.1, beNat x.2.2)

/-- Admit a head to a thread: parse, match, search (R108 to R118, R172). After a failure the payload offset is a free value
(R111, log entry 70). -/
def State.admitFrame (s : State) (sl n : Nat) (f : RxFrame) (o : ParseOut) : State :=
  let m := s.patterns sl (s.prsBank sl) f.bytes o
  let srch := if o.fail = 0 then s.searchesOf f o m else []
  let has := fun k => srch.any fun x => x.1 == k
  let old := s.th n
  let id := s.ppe.nextRob
  let d := Nat.max 8 (s.f F.PPE_SLICE_CFG_DEADLINE sl)
  let o := if o.fail = 0 then o else { o with payload := (Config.freeWord (s.free + 32)).toNat % 1024 }
  let t : Thread :=
    { state := .loading, gen := old.gen + 1, rob := id, frame := some f, bytes := f.bytes, bank := s.ppeBank sl
      entry := match f.inject with | some j => j.entry % 16 | none => s.f F.PPE_PORT_ENTRY_ENTRY sl (f.port % 16)
      seed := s.free, admLen := f.bytes.length, adm := s.pica.num, deadline := s.pica.num + d, parse := o, pats := m
      profile := s.profileOf sl (f.port % 16), s0 := if has 0 then .wait else .off, s1 := if has 1 then .wait else .off }
  let s1 := { s with free := s.free + 33, ppe := { s.ppe with nextRob := id + 1, lastCl := mset s.ppe.lastCl sl (n / 128 % 4) } }
  let s2 := (s1.setTh n t).setRob sl (s1.robOf sl ++ [{ id := id, adm := s.pica.num, len := f.bytes.length }])
  let s3 := s2.busyCount sl
  let s4 := if s3.f F.PRS_SLICE_STAT_VISIT_MAX sl < o.visits then s3.setF F.PRS_SLICE_STAT_VISIT_MAX o.visits sl else s3
  srch.foldl (fun u x => u.tdSend sl ⟨n, t.gen, .cls x.1, x.2.1, x.2.2.1, x.2.2.2, false⟩) s4

/-- Meaning of HEAD_ADMIT: a slice's oldest head takes a thread and a reorder entry and is parsed, matched and searched, if
this pica's shares, a thread and a reorder entry allow it; searches that find no room at their ports wait (R20, R26, R28,
R110, R155, R172, log entry 23). -/
def execHeadAdmit (slice : Fin 8) (s : State) : Ans :=
  s.onCore fun s =>
    let sl := slice.val
    match s.fifoOf sl, s.pickThread sl with
    | f :: rest, some n =>
      let o := s.parse sl (s.prsBank sl) (f.port % 16) f.bytes
      let heads := mgetD s.prs.heads sl 0
      let visits := mgetD s.prs.visits sl 0
      if 32 ≤ heads ∨ 2048 ≤ (s.robOf sl).length then s
      else if 256 < visits + o.visits then
        if s.prs.waited.contains sl then s else { s with prs := { s.prs with waited := s.prs.waited ++ [sl] } }
      else
        let s1 := { s with cry := { s.cry with fifo := msetD s.cry.fifo sl [] rest }
                           prs := { s.prs with heads := mset s.prs.heads sl (heads + 1)
                                               visits := mset s.prs.visits sl (visits + o.visits) } }
        s1.admitFrame sl n f o
    | _, _ => s

/-! ### Classification (R119 to R123) -/

/-- What the classifier settles: a drop's reason, or the word to act on. -/
inductive Settled where
  | drop (code : Nat) | word (w : Nat) (dflt : Bool)
  deriving DecidableEq, Repr

/-- The hit that wins: highest PRIO, then lower table, then lower row (R119). -/
def bestHit (a b : Nat × Nat × Nat × Nat) : Nat × Nat × Nat × Nat :=
  if a.1 ≠ b.1 then (if a.1 < b.1 then b else a)
  else if a.2.1 ≠ b.2.1 then (if b.2.1 < a.2.1 then b else a)
  else if b.2.2.1 < a.2.2.1 then b else a

/-- Resolve the action word (R119). -/
def State.resolve (s : State) (sl : Nat) (t : Thread) : Settled :=
  let lp := ((t.frame.map (·.port)).getD 0) % 16
  let dflt := Settled.word (s.defaultWord sl lp) true
  if t.parse.fail ≠ 0 then dflt
  else
    let ctl := (s.rd .CLS_PROF_CTRL sl t.profile 0).toNat
    let tbl := [bits ctl 28 23, bits ctl 13 8]
    let rs := [t.s0, t.s1].zip tbl
    if rs.any (fun x => match x.1 with | .done 2 _ _ _ => true | _ => false) ∧
        s.f F.CLS_PROF_CTRL_ERR_ACT sl t.profile = 0 then .drop 0x040
    else
      match rs.filterMap fun x => match x.1 with | .done 1 _ row w => some (prioOf w, x.2, row, w) | _ => none with
      | [] => dflt
      | h :: hs => .word (hs.foldl bestHit h).2.2.2 false

/-- The reason of a DROP or COPY word (R120, R123). -/
def State.wordReason (s : State) (t : Thread) (w : Nat) (dflt copy : Bool) : Nat :=
  if dflt && t.parse.fail != 0 then t.parse.fail
  else if s.userCode (reasonOf w) then reasonOf w
  else if dflt then (if copy then 0x044 else 0x043) else (if copy then 0x042 else 0x041)

/-- Act on a settled word (R120 to R122). -/
def State.settle (s : State) (n : Nat) (t : Thread) (w : Nat) (dflt : Bool) : State :=
  let sl := thSlice n
  let t1 := { t with word := w, settled := true }
  match actOf w with
  | 0 => s.endDrop n t1 (s.wordReason t w dflt false)
  | 2 => (s.setTh n t1).addOut n t1 (t1.copyOut (.punt (ringOf w) (s.wordReason t w dflt true)) t.bytes 0)
  | 3 =>
    match s.mirrorAct sl t1 (mirrorOf w) t.bytes 0 with
    | (some p, s1) => (s1.setTh n t1).addOut n t1 p
    | (none, s1) => s1.setTh n t1
  | _ => s.setTh n t1

/-- Meaning of CLASSIFY: once both search results have landed, one action word settles the frame (R119 to R123). -/
def execClassify (thread : BitVec 12) (s : State) : Ans :=
  s.onCore fun s =>
    let n := thread.toNat
    let t := s.th n
    if t.state = .loading ∧ !t.settled ∧ t.s0 ≠ .wait ∧ t.s1 ≠ .wait then
      match s.resolve (thSlice n) t with
      | .drop c => s.endDrop n t c
      | .word w d => s.settle n t w d
    else s

/-! ### Loading (R174, R178) -/

/-- The two words of a classifier search in the ingress record (R178); fields without a stated value come from a free
value. -/
def srchWords (x : Srch) (free : W64) : List W64 :=
  match x with
  | .done st err row w => [if st = 1 then BitVec.ofNat 64 w else free, tdStatus st err row free]
  | _ => [free, tdStatus 3 0 0 free]

/-- The ingress record (Table 8-4). -/
def Thread.record (t : Thread) (free : W64) : List W64 :=
  let f := t.frame.getD { port := 0, bytes := [] }
  let o := t.parse
  let ent := fun k => match o.stack[k]? with | some h => h.1 * 2 ^ 24 + h.2 | none => 0
  let slot := fun k => match t.pats.idx[k]? with | some i => 0x8000 + i | none => 0
  (List.range 8).map (fun k => BitVec.ofNat 64 (beNat (slice (o.fv ++ List.replicate 64 0) (8 * k) 8))) ++
  (List.range 12).map (fun k => BitVec.ofNat 64 (ent (2 * k) * 2 ^ 32 + ent (2 * k + 1))) ++
  [BitVec.ofNat 64 t.pats.groups,
   BitVec.ofNat 64 (slot 0 * 2 ^ 48 + slot 1 * 2 ^ 32 + slot 2 * 2 ^ 16 + slot 3),
   BitVec.ofNat 64 (o.stack.length * 2 ^ 56 + o.visits * 2 ^ 48 + o.payload * 2 ^ 38 + b2n (o.fail != 0) * 2 ^ 37
     + o.fail * 2 ^ 27 + b2n (t.pats.groups != 0) * 2 ^ 26 + b2n f.espFrag * 2 ^ 25 + b2n f.espNoSa * 2 ^ 24
     + b2n f.espDec * 2 ^ 23 + b2n f.valid * 2 ^ 22 + b2n f.prot * 2 ^ 21 + f.rxSa),
   BitVec.ofNat 64 t.word] ++ srchWords t.s0 free ++ srchWords t.s1 free ++ [0, 0, 0, 0]

/-- The metadata rows at thread start: zero, but for ORDER_DOMAIN (R177), and for an injected frame the TS_MODE, TS_TAG and
user row 8 of its descriptor (R49, R369). -/
def Thread.startRows (t : Thread) : List W64 :=
  match t.frame with
  | none => List.replicate 16 0
  | some f =>
    match f.inject with
    | none => BitVec.ofNat 64 f.port :: List.replicate 15 0
    | some j =>
      [BitVec.ofNat 64 (j.tsMode * 2 ^ 39 + j.domain), 0, BitVec.ofNat 64 (j.tsTag * 2 ^ 16), 0, 0, 0, 0, 0, j.user] ++
        List.replicate 7 0

/-- Meaning of THREAD_LOADED: window, metadata, scratch and ingress record are loaded and the program starts at its entry
(R174). -/
def execThreadLoaded (thread : BitVec 12) (s : State) : Ans :=
  s.onCore fun s =>
    let n := thread.toNat
    let t := s.th n
    if t.state = .loading ∧ t.settled then
      let x := s.fresh
      let pc := (mgetD s.ppe.pent (progBank (thSlice n) t.bank * 16 + t.entry) (0, 0)).1
      let t1 := { t with state := .ready, md := t.startRows, scratch := List.replicate 128 0, ing := t.record x.1 }
      (x.2.perf 0xB n).goto n t1 pc
    else s

/-! ### Lookups (R185 to R187) -/

/-- A value of key registers, most significant in the first. -/
def Thread.keyOf (t : Thread) (rs1 : BitVec 5) (n : Nat) : Nat :=
  (List.range n).foldl (fun a i => a * 2 ^ 64 + (t.reg (BitVec.ofNat 5 (rs1.toNat + i))).toNat) 0

/-- The key registers, up to w31. -/
def keyRegs (rs1 : BitVec 5) (n : Nat) : List (BitVec 5) :=
  ((List.range n).filter fun i => rs1.toNat + i < 32).map fun i => BitVec.ofNat 5 (rs1.toNat + i)

/-- Key registers of an exact-match table. -/
def State.xKeyRegs (s : State) (t : Nat) : Nat := Nat.max 1 ((s.f F.XMT_TBL_CFG_KEY_BITS t + 63) / 64)

/-- Meaning of LKX: an exact-match lookup is issued and rd becomes pending (R185, R187). -/
def execLkx (q : Issue) (rd rs1 : BitVec 5) (table : BitVec 4) (touch learn : Bool) (s : State) : Ans :=
  s.onCore fun s =>
    let n := q.thread.toNat
    let k := s.xKeyRegs table.toNat
    s.issue q (.lkx q rd rs1 table touch learn) (rd :: keyRegs rs1 k) fun t s =>
      if 32 < rs1.toNat + k then s.engFault n t 6
      else if 8 ≤ t.outst then s.setTh n { t with state := .sleeping .cap, again := true }
      else
        let st := s.xStore table.toNat
        let r : XReq := ⟨n, t.gen, rd.toNat, table.toNat, t.keyOf rs1 k, touch, learn, (t.reg rd).toNat % 2 ^ 32,
                           s.xEn table.toNat, s.fb F.XMT_STATUS_CLEAR_DONE⟩
        let s1 := { s with exm := { s.exm with reqs := mset s.exm.reqs st (mgetD s.exm.reqs st [] ++ [r]) } }
        let t1 := { t with pend := if rd = 0 then t.pend else t.pend ++ [rd.toNat], outst := t.outst + 1 }
        (s1.perf 6 n).goto n t1 (t.pc + 1)

/-- Key registers of a search width. -/
def tdKeyRegs (w : Nat) : Nat := match w with | 1 => 3 | 2 => 5 | _ => 2

/-- Meaning of LKT: a TD search is issued and rd and rd + 1 become pending; while both ports of the slice are full the
request is withheld and the thread sleeps (R155, R186, R187). -/
def execLkt (q : Issue) (rd rs1 : BitVec 5) (table : BitVec 6) (width : BitVec 2) (s : State) : Ans :=
  s.onCore fun s =>
    let n := q.thread.toNat
    let k := tdKeyRegs width.toNat
    s.issue q (.lkt q rd rs1 table width) (rd :: (rd + 1) :: keyRegs rs1 k) fun t s =>
      if rd = 0 ∨ rd = 31 ∨ 32 < rs1.toNat + k then s.engFault n t 6
      else if 8 ≤ t.outst then s.setTh n { t with state := .sleeping .cap, again := true }
      else
        let bits := match width.toNat with | 1 => 160 | 2 => 320 | _ => 80
        let r : TdReq := ⟨n, t.gen, .eng rd.toNat, table.toNat, width.toNat, t.keyOf rs1 k % 2 ^ bits, false⟩
        let full := !s.tdLost (thSlice n) && (s.portFor (thSlice n)).isNone
        let t1 := { t with pend := t.pend ++ [rd.toNat, rd.toNat + 1], outst := t.outst + 1
                           state := if full then .sleeping .room else t.state }
        ((s.perf 7 n).goto n t1 (t.pc + 1)).tdSend (thSlice n) r

/-- Whether a sleeping thread wakes. -/
def Thread.wakes (t : Thread) : Bool :=
  match t.state with
  | .sleeping (.reg r) => !t.pend.contains r
  | .sleeping .cap => decide (t.outst < 8)
  | .sleeping .all => t.outst == 0
  | _ => false

/-- A response lands in its thread's registers (R187). -/
def Thread.land (t : Thread) (r : Resp) : Thread :=
  let t1 := (r.words.zipIdx).foldl (fun (u : Thread) wi =>
    { u.setReg (BitVec.ofNat 5 (r.rd + wi.2)) wi.1 with pend := u.pend.erase (r.rd + wi.2) }) t
  let t2 := { t1 with outst := t1.outst - 1 }
  if t2.wakes then { t2 with state := .ready } else t2

/-- Meaning of LOOKUP_RESPONSE: the oldest response of a thread lands, or is discarded where its packet has ended (R187). -/
def execLookupResponse (thread : BitVec 12) (s : State) : Ans :=
  s.onCore fun s =>
    let n := thread.toNat
    match s.ppe.resp.find? fun r => r.thread == n with
    | none => s
    | some r =>
      let s1 := { s with ppe := { s.ppe with resp := s.ppe.resp.erase r } }
      let t := s1.th n
      if t.gen = r.gen ∧ t.state ≠ .free ∧ t.state ≠ .ending then
        let err := bits ((r.words.getLast?.getD 0).toNat) 63 62 == 2
        let s2 := if err then s1.perf 8 n else s1
        s2.setTh n (t.land r)
      else s1

/-- Meaning of WAIT: the thread sleeps until it has no lookup outstanding, then goes on behind it (Table 8-6). -/
def execWait (q : Issue) (s : State) : Ans :=
  s.onCore fun s => s.issue q (.wait q) [] fun t s =>
    s.goto q.thread.toNat { t with state := if t.outst = 0 then t.state else .sleeping .all } (t.pc + 1)

/-- A counter as RDC and the user page return it (R199). -/
def pcWord (ovf value : Nat) : W64 := BitVec.ofNat 64 (ovf * 2 ^ 63 + value)

/-- The special values of Table 8-8. -/
def State.special (s : State) (n : Nat) (t : Thread) (sel : Nat) : W64 :=
  let k := thCluster n
  match sel with
  | 0 => BitVec.ofNat 64 s.pica.num
  | 1 => BitVec.ofNat 64 t.deadline
  | 2 => BitVec.ofNat 64 n
  | 3 => pcWord (s.f F.PPE_PC_CYCLE_OVF (k / 4) (k % 4)) (s.f F.PPE_PC_CYCLE_CYCLES (k / 4) (k % 4))
  | _ =>
    if 4 ≤ sel ∧ sel ≤ 0xB ∧ s.fb F.PPE_PC_CFG_PROG_READ (k / 4) (k % 4) (sel - 4) then
      pcWord (s.f F.PPE_PC_VAL_OVF (k / 4) (k % 4) (sel - 4)) (s.f F.PPE_PC_VAL_VALUE (k / 4) (k % 4) (sel - 4))
    else 0

/-- Meaning of RDC: rd := a special value (R201). -/
def execRdc (q : Issue) (rd : BitVec 5) (sel : Byte) (s : State) : Ans :=
  s.onCore fun s => s.issue q (.rdc q rd sel) [rd] fun t s =>
    s.goto q.thread.toNat (t.setReg rd (s.special q.thread.toNat t sel.toNat)) (t.pc + 1)

/-! ### Edits (R188) -/

/-- Meaning of HINS: insert imm16 zero bytes at window offset rs1, or fault EDIT (R188). -/
def execHins (q : Issue) (rs1 : BitVec 5) (imm : W16) (s : State) : Ans :=
  s.onCore fun s => s.issue q (.hins q rs1 imm) [rs1] fun t s =>
    let n := q.thread.toNat
    let N := imm.toNat
    let o := (t.reg rs1).toNat
    let len := t.bytes.length
    if N = 0 ∨ 128 < N ∨ len < o ∨ 512 < o ∨ 8 ≤ t.edits ∨ t.admLen + 128 < len + N then s.engFault n t 7
    else
      s.goto n { t with bytes := t.bytes.take o ++ List.replicate N 0 ++ t.bytes.drop o, edits := t.edits + 1 } (t.pc + 1)

/-- The body bytes that HDEL brings into the window (R212). -/
def Thread.skipAfter (t : Thread) (len : Nat) : Nat :=
  let tail := t.admLen - 512 - t.skip
  let head := len - tail
  t.skip + Nat.min (512 - head) tail

/-- Meaning of HDEL: remove imm16 bytes at window offset rs1, or fault EDIT (R188). -/
def execHdel (q : Issue) (rs1 : BitVec 5) (imm : W16) (s : State) : Ans :=
  s.onCore fun s => s.issue q (.hdel q rs1 imm) [rs1] fun t s =>
    let n := q.thread.toNat
    let N := imm.toNat
    let o := (t.reg rs1).toNat
    let len := t.bytes.length
    if N = 0 ∨ 256 < N ∨ len < o + N ∨ 512 < o + N ∨ 8 ≤ t.edits ∨ t.admLen + 128 < len - N then s.engFault n t 7
    else
      s.goto n { t with bytes := t.bytes.take o ++ t.bytes.drop (o + N), edits := t.edits + 1
                        skip := t.skipAfter (len - N) } (t.pc + 1)

/-! ### Copies, domains, counters and ends (R189 to R191) -/

/-- Meaning of DOM: the packet declares its order domain; a second DOM is ignored (R191). -/
def execDom (q : Issue) (rs1 : BitVec 5) (s : State) : Ans :=
  s.onCore fun s => s.issue q (.dom q rs1) [rs1] fun t s =>
    let n := q.thread.toNat
    let d := (t.reg rs1).toNat % 65536
    (s.robUpd (thSlice n) t.rob fun e => { e with domain := some (e.domain.getD d) }).goto n t (t.pc + 1)

/-- A program copy is allowed by the cap of 2; a third counts in COPY_CAP (R190). -/
def State.copyCap (s : State) (n : Nat) (t : Thread) : State :=
  (s.sat F.PPE_SLICE_STAT_COPY_CAP 1 (thSlice n)).goto n t (t.pc + 1)

/-- Meaning of CPY: one copy of the frame as edited to a punt ring (R190, R384). -/
def execCpy (q : Issue) (ring : BitVec 4) (reason : BitVec 10) (s : State) : Ans :=
  s.onCore fun s => s.issue q (.cpy q ring reason) [] fun t s =>
    let n := q.thread.toNat
    if 2 ≤ t.copies then s.copyCap n t
    else
      let r := if s.userCode reason.toNat then reason.toNat else 0x054
      let t1 := { t with copies := t.copies + 1 }
      (s.addOut n t (t.copyOut (.punt ring.toNat r) t.bytes t.skip)).goto n t1 (t.pc + 1)

/-- Meaning of MIRR: one copy of the frame as edited through a mirror session (R122, R190). -/
def execMirr (q : Issue) (session : BitVec 6) (s : State) : Ans :=
  s.onCore fun s => s.issue q (.mirr q session) [] fun t s =>
    let n := q.thread.toNat
    match s.mirrorAct (thSlice n) t session.toNat t.bytes t.skip with
    | (none, s1) => s1.goto n t (t.pc + 1)
    | (some p, s1) =>
      if 2 ≤ t.copies then s1.copyCap n t
      else (s1.addOut n t p).goto n { t with copies := t.copies + 1 } (t.pc + 1)

/-- Meaning of CNTA: one packet and rs2[15:0] bytes to flow counter rs1[23:0]; while the queue of the counter's bank is full
the thread stays READY and issues it again (R184, R387). -/
def execCnta (q : Issue) (rs1 rs2 : BitVec 5) (s : State) : Ans :=
  s.onCore fun s => s.issue q (.cnta q rs1 rs2) [rs1, rs2] fun t s =>
    if bankRoom ≤ s.bankQueued ((t.reg rs1).toNat % 2 ^ 24) then s.setTh q.thread.toNat { t with again := true }
    else (s.post spFlow ((t.reg rs1).toNat % 2 ^ 24) [1, (t.reg rs2).toNat % 65536]).goto q.thread.toNat t (t.pc + 1)

/-- A signed 8-bit number. -/
def signed8 (v : Nat) : Int := if v < 128 then (v : Int) else (v : Int) - 256

/-- The frame with the descriptor of metadata rows 0 to 3 (Table 8-3). -/
def Thread.sentPkt (t : Thread) : Pkt :=
  let r0 := (t.md.getD 0 0).toNat
  let r1 := (t.md.getD 1 0).toNat
  let r2 := (t.md.getD 2 0).toNat
  let p := t.output .send t.bytes t.skip
  { p with qid := bits r0 63 44, mc := bit r0 43, cbEn := bit r0 42, espEn := bit r0 41, tsMode := bits r0 40 39
           adj := bits r0 33 16, group := bits r1 63 46, sa := bits r1 45 28, stream := bits r1 27 14
           policer := bits r2 63 46, polEn := bit r2 45, lenAdj := signed8 (bits r2 39 32), tsTag := bits r2 31 16
           egrArg := bits (t.md.getD 3 0).toNat 63 32 }

/-- Meaning of SEND: the packet ends; its descriptor and edited frame go to the reorder buffer (R189, R191). -/
def execSend (q : Issue) (s : State) : Ans :=
  s.onCore fun s => s.issue q (.send q) [] fun t s =>
    let n := q.thread.toNat
    (s.perf 0xC n).endThread n t fun e =>
      { e with sent := some t.sentPkt, domain := some (e.domain.getD ((t.md.getD 0 0).toNat % 65536)) }

/-- Meaning of PUNT: the packet ends; the edited frame goes to a punt ring with a reason, without order (R189, R384). -/
def execPunt (q : Issue) (ring : BitVec 4) (reason : BitVec 10) (s : State) : Ans :=
  s.onCore fun s => s.issue q (.punt q ring reason) [] fun t s =>
    let n := q.thread.toNat
    let r := if s.userCode reason.toNat then reason.toNat else 0x054
    (s.perf 0xD n).endThread n t fun e =>
      { e with outs := e.outs ++ [t.output (.punt ring.toNat r) t.bytes t.skip] }

/-- Meaning of DROP: the packet ends and is dropped under its reason, ENG_DROP where that is 0 or not available (R189,
R384). -/
def execDrop (q : Issue) (reason : BitVec 10) (s : State) : Ans :=
  s.onCore fun s => s.issue q (.drop q reason) [] fun t s =>
    let n := q.thread.toNat
    (s.perf 0xD n).endDrop n t (if s.userCode reason.toNat then reason.toNat else 0x053)

/-- Meaning of DEADLINE_EXPIRY: a packet that has not ended by pica A + D - 1 is stopped and dropped under ENG_OVERRUN
(R193). -/
def execDeadlineExpiry (thread : BitVec 12) (s : State) : Ans :=
  s.onCore fun s =>
    let n := thread.toNat
    let t := s.th n
    if t.state ≠ .free ∧ t.state ≠ .ending ∧ t.deadline ≤ s.pica.num then
      let s1 := ((s.sat F.PPE_SLICE_STAT_OVERRUNS 1 (thSlice n)).setF F.PPE_STATUS_OVERRUN 1).raise (352 + thSlice n)
      (s1.perf 0xE n).endDrop n t 0x050
    else s

/-- Meaning of THREAD_FREE: 8 cycles after its end a thread is FREE (R173). -/
def execThreadFree (thread : BitVec 12) (s : State) : Ans :=
  s.onCore fun s =>
    let n := thread.toNat
    let t := s.th n
    if t.state = .ending then
      let l := s.ppe.freed
      let s1 := { s with ppe := { s.ppe with freed := if l.contains (thEngine n) then l else thEngine n :: l } }
      (s1.setTh n { gen := t.gen }).busyCount (thSlice n)
    else s

/-! ### Program banks (R196) -/

/-- Reserved opcodes (Table 8-6). -/
def reservedOp (w : W32) : Bool := [0x1B, 0x1E, 0x1F, 0x2F].contains (w.extractLsb' 26 6).toNat

/-- The check of a slice's inactive bank against Table 8-9. -/
def State.ppeCheck (s : State) (sl : Nat) : Nat :=
  let b := progBank sl (1 - s.ppeBank sl)
  let len := mgetD s.ppe.plen b 0
  let ents := (List.range 16).map fun e => mgetD s.ppe.pent (b * 16 + e) (0, 0)
  let d := Nat.max 8 (s.f F.PPE_SLICE_CFG_DEADLINE sl)
  lowestCode [if ents.any fun e => decide (len ≤ e.1) then 1 else 0,
    if s.ppe.prog.any fun kv => kv.1 / 65536 == b && decide (kv.1 % 65536 < len) && reservedOp kv.2 then 2 else 0,
    if ents.any fun e => decide (d < e.2) then 3 else 0]

/-- The effect of a write of PPE_COMMIT: the check of the named slices starts; refused while any PENDING is set (R196). -/
def State.ppeCommit (s : State) (mask : Nat) : State :=
  if s.f F.PPE_BANK_STATUS_PENDING ≠ 0 then s.cfgErr F.PPE_STATUS_CFG_ERR 369
  else { s with ppe := { s.ppe with checking := mask } }.setF F.PPE_BANK_STATUS_PENDING mask

/-- A program commit's check ends: the checked slices swap at a pica boundary, or the commit is refused (R196). -/
def State.ppeSwap (s : State) : State :=
  let mask := s.ppe.checking
  if mask = 0 then s
  else
    let s1 := { s with ppe := { s.ppe with checking := 0 } }
    match (List.range 8).find? fun sl => bit mask sl && s.ppeCheck sl != 0 with
    | some sl =>
      (((s1.setF F.PPE_BANK_STATUS_PENDING 0).setF F.PPE_BANK_STATUS_CHECK_CODE (s.ppeCheck sl)).setF
        F.PPE_BANK_STATUS_CHECK_SLICE sl).cfgErr F.PPE_STATUS_CFG_ERR 369
    | none =>
      ({ s1 with ppe := { s1.ppe with swapping := mask } }.setF F.PPE_BANK_STATUS_ACTIVE
        (s.f F.PPE_BANK_STATUS_ACTIVE ^^^ mask)).settleSwap

/-- Meaning of PPE_COMMIT_SWAP (R196). -/
def execPpeCommitSwap (s : State) : Ans := s.onCore State.ppeSwap

end Sys2Proof.Machine
end

