-- ==== Sys2Proof/Machine/Buf.lean ====
section
/-! DEFINITION. The buffer store of QD (chapter 9): pools, chains, owners, freeing and the Loupe. -/
namespace Sys2Proof.Machine

/-! ### Pools (R205 to R207) -/

/-- Bytes of a buffer of a pool (Table 9-1). -/
def State.bufSize (s : State) (k : Nat) : Nat := 128 * 2 ^ s.f F.BUF_POOL_CFG_SIZE k
/-- Buffers of a pool. -/
def State.bufCount (s : State) (k : Nat) : Nat := s.f F.BUF_POOL_CFG_COUNT k

/-- The enabled pools, smallest buffers first. -/
def State.poolList (s : State) : List Nat :=
  (List.range 8).flatMap fun c =>
    (List.range 8).filter fun k => s.fb F.BUF_POOL_CFG_EN k && s.f F.BUF_POOL_CFG_SIZE k == c

/-- The size of the largest enabled pool. -/
def State.bufMax (s : State) : Nat := (s.poolList.map s.bufSize).foldl Nat.max 0

/-- The load check of R205. -/
def State.bufCfgOk (s : State) : Bool :=
  let l := s.poolList
  let m := s.f F.BUF_CTRL_MAX_FRAME
  !l.isEmpty && decide ((l.map s.bufSize).Nodup) &&
    decide (l.foldl (fun a k => a + s.bufSize k * s.bufCount k) 0 ≤ 167772160) &&
    decide (64 ≤ m) && decide (m ≤ 16384) && decide (m ≤ 128 * s.bufMax)

/-- The effect of BUILD: ignored once CFG_DONE is set; a passing configuration starts to build, a failing one is refused and
nothing is built (R207). -/
def State.bufBuild (s : State) : State :=
  if s.fb F.BUF_STATUS_CFG_DONE then s
  else if s.bufCfgOk then { s with buf := { s.buf with building := true } }
  else ({ s with buf := { s.buf with building := false } }).cfgErr F.BUF_STATUS_CFG_ERR 452

/-- Bundles in the spill region, by ordering code (R217). -/
def State.spillTotal (s : State) : Nat := if s.f F.HST_ID_ORDER = 0 then 14680064 else 6553600

/-- Meaning of BUF_BUILD_DONE: each enabled pool's free list holds its buffers in index order, the spill region is free
and CFG_DONE sets (R207). Where the fields were written after BUILD the check is made on what they hold now (log entry 96). -/
def execBufBuildDone (s : State) : Ans :=
  s.onCore fun s =>
    if !s.buf.building then s
    else if !s.bufCfgOk then s.bufBuild
    else
      let s1 := { s with buf := { s.buf with building := false, pools := s.poolList.foldl (fun m k => mset m k (0, [])) []
                                             loupe := { s.buf.loupe with since := s.pica.num } } }
      let s2 := s1.poolList.foldl (fun (u : State) k => u.setF F.BUF_POOL_FREE_FREE (u.bufCount k) k) s1
      ((s2.setF F.BUF_SPILL_TOTAL s.spillTotal).setF F.BUF_SPILL_FREE s.spillTotal).setF F.BUF_STATUS_CFG_DONE 1

/-! ### Allocation (R208 to R210) -/

/-- The handle of a buffer. -/
def handleOf (pool idx : Nat) : Nat := pool * 2 ^ 21 + idx
/-- The pool of a handle. -/
def handlePool (h : Nat) : Nat := h / 2 ^ 21

/-- Buffers on a pool's free list. -/
def State.poolFree (s : State) (k : Nat) : Nat :=
  match mget s.buf.pools k with
  | none => 0
  | some p => s.bufCount k - p.1 + p.2.length

/-- Show a pool's free count, and its lowest value since the last read. -/
def State.showFree (s : State) (k : Nat) : State :=
  let n := s.poolFree k
  let s1 := s.setF F.BUF_POOL_FREE_FREE n k
  if n < s1.f F.BUF_POOL_MIN_MIN k then s1.setF F.BUF_POOL_MIN_MIN n k else s1

/-- A pool has a buffer to give: arrivals leave the reserve of ⌊COUNT / 64⌋ (R210). -/
def State.poolHas (s : State) (arrival : Bool) (k : Nat) : Bool :=
  decide ((if arrival then s.bufCount k / 64 else 0) < s.poolFree k)

/-- Take the first buffer of a pool's free list. -/
def State.popBuf (s : State) (k : Nat) : Option (Nat × State) :=
  match mget s.buf.pools k with
  | none => none
  | some (n, ret) =>
    if n < s.bufCount k then
      some (handleOf k n, ({ s with buf := { s.buf with pools := mset s.buf.pools k (n + 1, ret) } }).showFree k)
    else
      match ret with
      | [] => none
      | h :: t => some (h, ({ s with buf := { s.buf with pools := mset s.buf.pools k (n, t) } }).showFree k)

/-- Put a buffer at the end of its pool's free list. -/
def State.pushBuf (s : State) (h : Nat) : State :=
  let k := handlePool h
  let p := mgetD s.buf.pools k (0, [])
  ({ s with buf := { s.buf with pools := mset s.buf.pools k (p.1, p.2 ++ [h]) } }).showFree k

/-- The bytes that each segment of a chain of L bytes holds (R208). -/
def segLens (smax L : Nat) : List Nat :=
  let n := (L + smax - 1) / smax
  List.replicate (n - 1) smax ++ (if n = 0 then [] else [L - (n - 1) * smax])

/-- The pool a segment is to come from: the smallest enabled one that holds its bytes. -/
def State.segPool (s : State) (len : Nat) : Nat := (s.poolList.find? fun k => decide (len ≤ s.bufSize k)).getD 0

/-- The pool that lends for pool k: the next larger enabled one that has a buffer. -/
def State.lender (s : State) (arrival : Bool) (k : Nat) : Option Nat :=
  s.poolList.find? fun j => decide (s.bufSize k < s.bufSize j) && s.poolHas arrival j

/-- Take one buffer for a segment: the buffer, or the pool that was empty. -/
def State.takeSeg (s : State) (arrival : Bool) (len : Nat) : Except Nat (Nat × State) :=
  let k := s.segPool len
  let from? := if s.poolHas arrival k then some k else if s.fb F.BUF_POOL_CFG_BORROW k then s.lender arrival k else none
  match from?.bind fun j => (s.popBuf j).map fun x => (j, x) with
  | none => .error k
  | some (j, h, s1) => .ok (h, if j = k then s1 else s1.sat F.BUF_POOL_DROP_BORROWED 1 j)

/-- Take buffers for segments in order; on failure every buffer taken goes back and the empty pool is named. -/
def State.takeSegs (s : State) (arrival : Bool) : List Nat → List (Nat × Nat) → Except Nat (List (Nat × Nat)) × State
  | [], got => (.ok got, s)
  | len :: rest, got =>
    match s.takeSeg arrival len with
    | .error k => (.error k, got.foldl (fun (u : State) h => u.pushBuf h.1) s)
    | .ok (h, s1) => s1.takeSegs arrival rest (got ++ [(h, len)])

/-- A link entry. -/
def State.linkOf (s : State) (h : Nat) : LinkEntry := mgetD s.buf.link h {}

/-- Write the link entries of a chain: segments as (handle, bytes), in order. -/
def State.writeLinks (s : State) (owners : Nat) (first : Bool) : List (Nat × Nat) → State
  | [] => s
  | (h, len) :: rest =>
    let e : LinkEntry :=
      { state := true, first := first, last := rest.isEmpty, mark := s.buf.loupe.mark, owners := if first then owners else 0, bytes := len
        next := (rest.head?.map (·.1)).getD 0 }
    ({ s with buf := { s.buf with link := mset s.buf.link h e } }).writeLinks owners false rest

/-- What storing a chain answers: the handle of its first segment (none for no bytes), too many segments, or the pool that
was empty. -/
inductive Stored where
  | chain (h : Option Nat) | tooLong | empty (pool : Nat)
  deriving DecidableEq, Repr

/-- Store L bytes as one chain under R208, `taken` segments being in use by the output already. -/
def State.storeChain (s : State) (arrival : Bool) (taken owners L : Nat) : Stored × State :=
  let lens := segLens s.bufMax L
  if 128 < taken + lens.length then (.tooLong, s)
  else
    match s.takeSegs arrival lens [] with
    | (.error k, s1) => (.empty k, s1)
    | (.ok segs, s1) => (.chain (segs.head?.map (·.1)), s1.writeLinks owners true segs)

/-! ### Owners and freeing (R214 to R216) -/

/-- The segments of a chain, first to last: a segment that is free still names the next. -/
def State.chainSegs (s : State) : Nat → Nat → List Nat
  | 0, _ => []
  | n + 1, h => if (s.linkOf h).last then [h] else h :: s.chainSegs n (s.linkOf h).next

/-- The segments of a chain of at most 128. -/
def State.segsOf (s : State) (h : Nat) : List Nat := s.chainSegs 128 h

/-- A double free of a buffer (R215). -/
def State.doubleFree (s : State) (h : Nat) : State :=
  (((s.sat F.BUF_DFREE_LOG_COUNT 1).setF F.BUF_DFREE_LOG_HANDLE h).setF F.BUF_STATUS_DFREE 1).raise 449

/-- Free one segment: its STATE clears and it joins its pool's free list; a free one is a double free (R214, R215). -/
def State.freeSeg (s : State) (h : Nat) : State :=
  if (s.linkOf h).state then
    let lp := s.buf.loupe
    ({ s with buf := { s.buf with link := mset s.buf.link h { s.linkOf h with state := false }
                                  badLinks := s.buf.badLinks.erase h
                                  loupe := { lp with stale := lp.stale.erase h } } }).pushBuf h
  else s.doubleFree h

/-- One owner releases a chain; the last owner frees it (R214). -/
def State.release (s : State) (h : Nat) : State :=
  let e := s.linkOf h
  if !e.state then s.doubleFree h
  else if e.owners ≤ 1 then (s.segsOf h).foldl State.freeSeg s
  else { s with buf := { s.buf with link := mset s.buf.link h { e with owners := e.owners - 1 } } }

/-- A chain runs through a link entry that reads uncorrectably. -/
def State.chainBad (s : State) (h : Nat) : Bool :=
  !s.buf.badLinks.isEmpty && (s.segsOf h).any fun x => s.buf.badLinks.contains x

/-- The current mark on every buffer of a chain (R221). -/
def State.markChain (s : State) (h : Nat) : State :=
  { s with buf := { s.buf with
      link := (s.segsOf h).foldl (fun m x => mset m x { mgetD m x {} with mark := s.buf.loupe.mark }) s.buf.link } }

/-- A frame's chains are released, but for one that an uncorrectable link entry makes unreachable (R216): during an audit its
buffers take the mark as they pass from their holder (R221). -/
def State.releasePkt (s : State) (p : Pkt) : State :=
  let lost := if s.fb F.BUF_LOUPE_STATUS_BUSY then p.chains.filter s.chainBad else []
  (p.chains.filter fun h => !s.chainBad h).foldl State.release (lost.foldl State.markChain s)

/-- A frame leaves QD's path under a reason code. -/
def State.dropPkt (s : State) (code : Nat) (p : Pkt) : State := (s.drop code p.bytes.length p.port).releasePkt p

/-- A frame is lost to an uncorrectable link entry (R216). -/
def State.pktBad (s : State) (p : Pkt) : Bool := p.chains.any s.chainBad

/-- An uncorrectable link entry is found (R216): link memory is an element of QD, whose finer place the spec does not name
(log entry 93). -/
def State.linkError (s0 : State) (h : Nat) : State :=
  let loc := anyLocation 1 s0.fresh.1
  let s := s0.fresh.2
  let s1 := { s with buf := { s.buf with badLinks := if s.buf.badLinks.contains h then s.buf.badLinks else h :: s.buf.badLinks } }
  ((s1.wr .BUF_ERR_LOG 0 0 0 loc).setF F.BUF_STATUS_ECC_UNCORR 1).raiseD 450 loc

/-- Add r - 1 owners to every chain of an output that is replicated to r queues; none where a count would pass 65,535
(R214). -/
def State.addOwners (s : State) (p : Pkt) (r : Nat) : Option State :=
  if p.chains.any fun h => decide (65535 < (s.linkOf h).owners + r - 1) then none
  else
    some { s with buf := { s.buf with
      link := p.chains.foldl (fun m h => mset m h { mgetD m h {} with owners := (mgetD m h {}).owners + r - 1 }) s.buf.link } }

/-! ### Storing an arrival (R208, R210, R212) -/

/-- Count a BUF_NO_BUFFER or BUF_CHAIN drop of an arrival. -/
def State.storeDrop (s : State) (r : Stored) (p : Pkt) : State :=
  match r with
  | .tooLong => (s.sat F.BUF_DROPS_CHAIN 1).dropPkt 0x060 p
  | .empty k => ((s.sat F.BUF_POOL_DROP_NO_BUF 1 k).setF F.BUF_STATUS_NO_BUF 1).dropPkt 0x061 p
  | .chain _ => s

/-- An output with its own chain stored, or dropped; `body` is the shared body chain it references, with its segments. -/
def State.storeOut (s : State) (body : Option (Nat × Nat)) (p : Pkt) : State :=
  let b := match body with | some x => if p.body = 0 then none else some x | none => none
  let own := match b with | some _ => p.bytes.length - p.body | none => p.bytes.length
  let base := match b with | some x => [x.1] | none => []
  match s.storeChain true ((b.map (·.2)).getD 0) 1 own with
  | (.chain h, s1) =>
    let q := { p with chains := h.toList ++ base }
    { s1 with que := { s1.que with arrivals := s1.que.arrivals ++ [q] } }
  | (r, s1) => s1.storeDrop r { p with chains := base }

/-- Store a descriptor group's outputs as R212 states: a body that several outputs share is stored once, with an owner for
each output that references it. -/
def State.storeGroup (s : State) (g : Group) : State :=
  let users := g.outs.filter fun p => p.body ≠ 0
  if g.outs.length < 2 ∨ g.admLen ≤ 512 ∨ users.isEmpty then g.outs.foldl (fun (u : State) p => u.storeOut none p) s
  else
    match s.storeChain true 0 users.length (g.admLen - 512) with
    | (.chain (some h), s1) =>
      g.outs.foldl (fun (u : State) p => u.storeOut (some (h, (segLens s.bufMax (g.admLen - 512)).length)) p) s1
    | (r, s1) =>
      g.outs.foldl (fun (u : State) p => if p.body = 0 then u.storeOut none p else u.storeDrop r p) s1

/-! ### The Loupe (R221 to R223) -/

/-- A Loupe report: into the FIFO of 64, or discarded; the first of an audit raises BUF_LEAK (R223). -/
def State.loupeReport (s : State) (kind h : Nat) : State :=
  let lp := s.buf.loupe
  let room := decide (lp.reports.length < 64)
  let reps := if room then lp.reports ++ [⟨lp.audit % 65536, kind, h⟩] else lp.reports
  let s1 := { s with buf := { s.buf with loupe := { lp with reports := reps, said := true } } }
  let s2 := (s1.setF F.BUF_STATUS_LEAK 1).setF F.BUF_LOUPE_STATUS_REPORTS reps.length
  if lp.said then s2 else s2.raise 451

/-- AUDIT_MS in force: 0 acts as 1, and more than 1,000 as 1,000. -/
def State.auditMs (s : State) : Nat := Nat.min 1000 (Nat.max 1 (s.f F.BUF_CTRL_AUDIT_MS))

/-- Meaning of LOUPE_AUDIT_START: AUDIT_MS after CFG_DONE, after LOUPE_EN was set, or after the last start, the mark value is
inverted and the walk starts (R221). -/
def execLoupeAuditStart (s : State) : Ans :=
  s.onCore fun s =>
    let lp := s.buf.loupe
    if s.fb F.BUF_CTRL_LOUPE_EN && s.fb F.BUF_STATUS_CFG_DONE && !s.fb F.BUF_LOUPE_STATUS_BUSY &&
        decide (lp.since + s.auditMs * 62500 ≤ s.pica.num) then
      { s with buf := { s.buf with loupe := { lp with mark := !lp.mark, audit := lp.audit + 1, walk := 0, sweeping := false
                                                      sweep := 0, nowStale := [], said := false, since := s.pica.num } } }.setF
        F.BUF_LOUPE_STATUS_BUSY 1
    else s

/-- The effect of setting LOUPE_EN: the wait for the next audit counts from the write (R221, log entry 96). -/
def State.loupeOn (s : State) : State := { s with buf := { s.buf with loupe := { s.buf.loupe with since := s.pica.num } } }

/-- Every frame that a holder of R221 references: arrivals and replication, queues with their open bundles and bundles
that wait for HBM, frames crossing to FD or waiting for a punt ring or the fabric, and frames that reassembly completed. -/
def State.heldPkts (s : State) : List Pkt :=
  s.que.arrivals ++ s.que.mc.map (·.p) ++ s.que.mcWork.toList.map (·.1.p) ++
  s.que.q.flatMap (fun kv => kv.2.frames ++ kv.2.restored ++ kv.2.opened) ++
  s.buf.full.flatMap (fun b => b.2.frames) ++
  s.que.flight.map (fun kv => kv.2.2) ++ s.que.toEdit.map (·.2) ++ s.que.toPunt.flatMap (·.2) ++
  s.fab.flows.flatMap (fun kv => kv.2.frame.toList) ++
  s.fab.out.flatMap (fun kv => kv.2.flatMap (·.last)) ++ s.fab.done.map (·.p) ++
  (match s.que.flush with | some (_, l) => l | none => [])

/-- The current mark on every buffer of every held chain: what the walk has done when it ends. Chains that moved meanwhile
are marked as they move, which comes to the same. -/
def State.markHeld (s : State) : State :=
  let hs := s.heldPkts.flatMap (fun p => p.chains.flatMap s.segsOf)
  { s with buf := { s.buf with
      link := hs.foldl (fun m h => mset m h { mgetD m h {} with mark := s.buf.loupe.mark }) s.buf.link } }

/-- The place of a buffer in link memory, counting the enabled pools from pool 0. -/
def State.linkPlace (s : State) (h : Nat) : Nat :=
  (List.range (handlePool h)).foldl (fun a k => a + (if s.fb F.BUF_POOL_CFG_EN k then s.bufCount k else 0)) (h % 2 ^ 21)

/-- Link entries of the enabled pools. -/
def State.linkTotal (s : State) : Nat := s.poolList.foldl (fun a k => a + s.bufCount k) 0

/-- Sweep one allocated entry: unmarked in two audits running it is leaked, reported, and with RECLAIM freed (R221). A stale
entry takes the current mark, so that the next audit, which inverts the value, again finds it unmarked (DEDUCED, log entry
96). -/
def State.sweepEntry (s : State) (h : Nat) : State :=
  let e := s.linkOf h
  let lp := s.buf.loupe
  if !e.state || e.mark = lp.mark then s
  else
    let s1 := { s with buf := { s.buf with link := mset s.buf.link h { e with mark := lp.mark }
                                           loupe := { lp with nowStale := lp.nowStale ++ [h] } } }
    if lp.stale.contains h then
      if s.fb F.BUF_CTRL_RECLAIM then (s.freeSeg h).loupeReport 2 h
      else s1.loupeReport 1 h
    else s1

/-- Meaning of LOUPE_STEP: 64 holders are walked, or 64 link entries swept (R221). -/
def execLoupeStep (s : State) : Ans :=
  s.onCore fun s =>
    let lp := s.buf.loupe
    if !s.fb F.BUF_LOUPE_STATUS_BUSY then s
    else if !lp.sweeping then
      if lp.walk + 64 < 1048576 then { s with buf := { s.buf with loupe := { lp with walk := lp.walk + 64 } } }
      else { s.markHeld with buf := { s.markHeld.buf with loupe := { lp with sweeping := true, sweep := 0 } } }
    else if s.linkTotal ≤ lp.sweep then s
    else
      let hs := (s.buf.link.map (·.1)).filter fun h =>
        decide (lp.sweep ≤ s.linkPlace h) && decide (s.linkPlace h < lp.sweep + 64)
      hs.foldl State.sweepEntry { s with buf := { s.buf with loupe := { lp with sweep := lp.sweep + 64 } } }

/-- Bundles that queues hold in HBM. -/
def State.bundlesHeld (s : State) : Nat :=
  s.que.q.foldl (fun a kv => a + kv.2.hbm.length + kv.2.tails.length + kv.2.restoring.toList.length) 0

/-- Free bundles. -/
def State.bundlesFree (s : State) : Nat := s.spillTotal - s.buf.bundleFresh + s.buf.bundleFree.length

/-- A mismatch is reported, and is a hardware fault (R222, R298). -/
def State.loupeMismatch (s : State) (kind h : Nat) : State :=
  ((s.loupeReport kind h).setF F.BUF_STATUS_MISMATCH 1).hwFault

/-- Meaning of LOUPE_AUDIT_END: the free lists and the bundles are compared with the counts (R222), and the audit ends. -/
def execLoupeAuditEnd (s : State) : Ans :=
  s.onCore fun s =>
    let lp := s.buf.loupe
    if s.fb F.BUF_LOUPE_STATUS_BUSY && lp.sweeping && decide (s.linkTotal ≤ lp.sweep) then
      let used := fun k => (s.buf.link.filter fun e => e.2.state && handlePool e.1 == k).length
      let s1 := s.poolList.foldl (fun (u : State) k =>
        if s.poolFree k + used k = s.bufCount k then u else u.loupeMismatch 3 (k * 2 ^ 21)) s
      let s2 := if s.bundlesFree + s.bundlesHeld = s.spillTotal then s1 else s1.loupeMismatch 4 0
      let lp2 := s2.buf.loupe
      ({ s2 with buf := { s2.buf with loupe := { lp2 with sweeping := false, stale := lp2.nowStale } } }.sat
        F.BUF_LOUPE_STATUS_AUDITS 1).setF F.BUF_LOUPE_STATUS_BUSY 0
    else s

/-- A read of BUF_LOUPE_REPORT's low word (R223): the low and high words of the oldest report, which is removed. -/
def State.loupeRead (s : State) : W32 × W32 × State :=
  match s.buf.loupe.reports with
  | [] => (0, 0, s)
  | r :: rest =>
    let s1 := { s with buf := { s.buf with loupe := { s.buf.loupe with reports := rest } } }
    (BitVec.ofNat 32 (2 ^ 31 + r.kind * 2 ^ 28 + r.handle), BitVec.ofNat 32 (r.audit * 2 ^ 16),
      s1.setF F.BUF_LOUPE_STATUS_REPORTS rest.length)

end Sys2Proof.Machine
end

