-- ==== Sys2Proof/Machine/Tpl.lean ====
section
/-! DEFINITION. From FD to QD and back: the reorder buffer's releases, the 802.1CB stream unit (R313 to R316), the Triplet
lanes (R303 to R306), and the pairing of descriptor groups with their data (R211 to R213). -/
namespace Sys2Proof.Machine

/-! ### The stream unit (R313, R316) -/

/-- The offset of the first EtherType 0xF1C1 at window offsets 12, 16 and 20. -/
def rtagAt (b : List Byte) : Option Nat := [12, 16, 20].find? fun o => slice b o 2 == [0xF1, 0xC1]

/-- The 24-bit number closest to SEQ whose low 16 bits are s: less than 2^15 ahead, or at most 2^15 behind (R316). -/
def extendSeq (seq s : Nat) : Nat :=
  let d := (s + 65536 - seq % 65536) % 65536
  if d < 32768 then (seq + d) % 2 ^ 24 else (seq + 2 ^ 24 + d - 65536) % 2 ^ 24

/-- Individual recovery (R316): accept with the entry's next state, or the reason of the drop. -/
def Stream.recover (x : Stream) (f now recov : Nat) : Except Nat Stream :=
  let a := (f + 2 ^ 24 - x.seq) % 2 ^ 24
  let b := (x.seq + 2 ^ 24 - f) % 2 ^ 24
  if !x.hvalid || decide (x.last + recov ≤ now) then
    .ok { x with seq := f, history := 1, hvalid := true, last := now }
  else if 0 < a ∧ a < 32768 then
    .ok { x with seq := f, history := (if a < 64 then x.history * 2 ^ a % 2 ^ 64 else 0) ||| 1, last := now }
  else if x.hist = 0 then .ok { x with last := now }
  else if b < x.hist then
    if bit x.history b then .error 0xA3 else .ok { x with history := x.history ||| 2 ^ b, last := now }
  else .error 0xA4

/-- A change of SEQ of a recover-mode stream of the principal goes to the second member, merged with a record still queued
(R316). -/
def State.mirrorStream (s : State) (id seq : Nat) : State :=
  if s.doublet && s.principal && s.twinUp then
    let q := s.twin.queue.filter fun r => match r with | .stream i _ => i != id | _ => true
    { s with twin := { s.twin with queue := q } }.mirrorRec (.stream id seq)
  else s

/-- Count a stream unit's drop in RED_CB_DROPS. -/
def State.cbCount (s : State) (code : Nat) : State :=
  match code with
  | 0xA0 => s.sat F.RED_CB_DROPS_UNSYNCED 1
  | 0xA3 => s.sat F.RED_CB_DROPS_DUPLICATE 1
  | 0xA4 => s.sat F.RED_CB_DROPS_ROGUE 1
  | _ => s.sat F.RED_CB_DROPS_NO_RTAG 1

/-- The stream unit acts on a released frame: the frame as it crosses, or the reason of its drop (R313, R316). -/
def State.streamUnit (s : State) (p : Pkt) : Except Nat Pkt × State :=
  if !p.cbEn then (.ok p, s)
  else
    match s.streamOf p.stream with
    | none => (.error 0xA1, s)
    | some x =>
      if x.mode = 0 then
        (.ok { p with dbl := true, fseq := x.seq },
          { s with cb := mset s.cb p.stream { x with seq := (x.seq + 1) % 2 ^ 24 } })
      else if s.doublet && !s.fb F.RED_STATUS_SYNCED && !(s.principal && !s.twinUp) then (.error 0xA0, s)
      else
        match rtagAt p.bytes with
        | none => (.error 0xA2, s)
        | some o =>
          let f := extendSeq x.seq (beNat (slice p.bytes (o + 4) 2))
          match x.recover f s.pica.num (s.f F.RED_CB_CFG_RECOV_MS * 62500) with
          | .error c => (.error c, s)
          | .ok y =>
            let s1 := { s with cb := mset s.cb p.stream y }
            (.ok { p with dbl := true, fseq := f, bytes := p.bytes.take o ++ p.bytes.drop (o + 6) },
              if y.seq = x.seq then s1 else s1.mirrorStream p.stream y.seq)

/-! ### Releases of the reorder buffer (R192, R211, R212) -/

/-- The bytes that a group's outputs take on the slice channel (R212). -/
def groupBytes (admLen : Nat) (outs : List Pkt) : Nat :=
  if outs.length < 2 ∨ admLen ≤ 512 then outs.foldl (fun a p => a + p.bytes.length) 0
  else outs.foldl (fun a p => a + (p.bytes.length - p.body)) (admLen - 512)

/-- QD accepts a group: the free lists are built, fewer than 64 vote windows wait for an acknowledgement, and the slice's
FIFO has room (R207, R211, R305). -/
def State.canCross (s : State) (sl bytes : Nat) : Bool :=
  s.fb F.BUF_STATUS_CFG_DONE && decide (s.buf.fq.hist.length < 64) &&
    decide (mgetD s.buf.chanBytes sl 0 + bytes ≤ 262144)

/-- A descriptor group crosses: its descriptors join the next vote window, its data the slice channel. -/
def State.cross (s : State) (sl admLen : Nat) (outs : List Pkt) : State :=
  if outs.isEmpty then s
  else
    let tag := mgetD s.buf.tagOut sl 0
    let n := s.buf.nextGroup
    let bytes := groupBytes admLen outs
    let words := (List.range outs.length).map fun i => n * 4 + i
    { s with buf := { s.buf with
        flight := mset s.buf.flight n ⟨sl, tag, admLen, outs⟩, nextGroup := n + 1
        tagOut := mset s.buf.tagOut sl ((tag + 1) % 4096)
        chan := mset s.buf.chan sl (mgetD s.buf.chan sl [] ++ [⟨tag, bytes⟩])
        chanBytes := mset s.buf.chanBytes sl (mgetD s.buf.chanBytes sl 0 + bytes)
        fq := { s.buf.fq with queue := s.buf.fq.queue ++ words } } }

/-- Every older entry that remains lets a packet of domain d pass (R192). -/
def robClear (d : Option Nat) (older : List RobEntry) : Bool :=
  older.all fun e => (e.ended && e.sent.isNone) || (e.domain.isSome && e.domain != d)

/-- Release one entry's outputs: the sent frame through the stream unit, then its copies. -/
def State.releaseEntry (s : State) (sl : Nat) (e : RobEntry) : State :=
  match e.sent with
  | none => s.cross sl e.len e.outs
  | some p =>
    match s.streamUnit p with
    | (.ok q, s1) => s1.cross sl e.len (q :: e.outs)
    | (.error c, s1) => (((s1.cbCount c).drop c p.bytes.length p.port)).cross sl e.len e.outs

/-- Go through a slice's entries from the oldest: at most n packets are released, none once QD accepts no more. A punted frame
leaves with its entry (R189); the entry of a packet that ended without an output of its own stays. Answers the entries that
stay and the releases left. -/
def State.robPass (s : State) (sl n : Nat) (older : List RobEntry) : List RobEntry → State × List RobEntry × Nat
  | [] => (s, older, n)
  | e :: rest =>
    let outs := e.sent.toList ++ e.outs
    if e.ended && !outs.isEmpty && decide (0 < n) && (e.sent.isNone || robClear e.domain older) then
      if s.canCross sl (groupBytes e.len outs) then
        let s1 := s.releaseEntry sl e
        if e.sent.isSome || e.outs.any fun p => !p.copy then s1.robPass sl (n - 1) older rest
        else s1.robPass sl (n - 1) (older ++ [{ e with outs := [] }]) rest
      else (s, older ++ e :: rest, n)
    else s.robPass sl n (older ++ [e]) rest

/-- Entries at the front that ended without output are freed (R192). -/
def robFree (l : List RobEntry) : List RobEntry := l.dropWhile fun e => e.ended && e.sent.isNone && e.outs.isEmpty

/-- Meaning of ROB_RELEASE: up to 32 packets a pica leave a slice's reorder buffer, oldest first (R192). -/
def execRobRelease (slice : Fin 8) (s : State) : Ans :=
  s.onCore fun s =>
    let sl := slice.val
    let used := mgetD s.ppe.relUsed sl 0
    let r := s.robPass sl (32 - used) [] (s.robOf sl)
    ({ r.1 with ppe := { r.1.ppe with relUsed := mset r.1.ppe.relUsed sl (32 - r.2.2) } }).setRob sl (robFree r.2.1)

/-! ### Vote windows (R303 to R306) -/

/-- One direction's lane state: 0 FD to QD, 1 QD to FD. -/
def State.dir (s : State) (d : Nat) : TplDir := if d = 0 then s.buf.fq else s.buf.qf

/-- Store one direction's lane state. -/
def State.setDir (s : State) (d : Nat) (x : TplDir) : State :=
  if d = 0 then { s with buf := { s.buf with fq := x } } else { s with buf := { s.buf with qf := x } }

/-- The lanes of a direction in service, as a bit mask. -/
def State.laneMask (s : State) (d : Nat) : Nat :=
  if d = 0 then s.f F.TPL_STATUS_LIVE_FQ else s.f F.TPL_STATUS_LIVE_QF

/-- The lanes of a direction in service. -/
def State.lanes (s : State) (d : Nat) : List Nat := [0, 1, 2].filter (bit (s.laneMask d))

/-- Bits [63:32] of a vote window header (Table 13-2). -/
def voteHead (win ack : Nat) (nak resend : Bool) (count : Nat) : Nat :=
  win % 256 * 2 ^ 24 + ack % 256 * 2 ^ 16 + b2n nak * 2 ^ 15 + b2n resend * 2 ^ 14 + count % 1024 * 2 ^ 4

/-- A vote window as its words: header and descriptors. -/
def voteWords (head : Nat) (descs : List Nat) : List W64 :=
  let ds := descs.map fun n => BitVec.ofNat 64 n
  BitVec.ofNat 64 (head * 2 ^ 32 + (Config.voteCrc head ds).toNat) :: ds

/-- The ACK a die sends in direction d: the last good window of the other direction; before the first, a free value. -/
def State.ackOf (s : State) (d : Nat) : Nat × State :=
  match (s.dir (1 - d)).good with
  | some w => (w, s)
  | none => (s.fresh.1.toNat % 256, s.fresh.2)

/-- Emit a window on every live lane of a direction. -/
def State.emitWindow (s : State) (d : Nat) (w : VoteWin) (resend : Bool) : State :=
  let a := s.ackOf d
  a.2.emit (.voteWindow d (s.lanes d)
    (voteWords (voteHead w.win a.1 (s.dir (1 - d)).nak resend w.descs.length) w.descs))

/-- The sending die of direction d sends the window of a pica (R303): descriptors stay behind while 64 windows are not
acknowledged (R305). A window without descriptors sent meanwhile can be replayed too, since its content is known: it is listed
beside the 64 (log entry 24). -/
def State.sendWindow (s : State) (d : Nat) : State :=
  let x := s.dir d
  let win := (if d = 0 then s.pica.num else s.pica.qd) % 256
  if x.hist.length < 64 then
    let w : VoteWin := ⟨win, x.queue.take 1023⟩
    (s.setDir d { x with hist := x.hist ++ [w], queue := x.queue.drop 1023 }).emitWindow d w false
  else (s.setDir d (if x.hist.length < 255 then { x with hist := x.hist ++ [⟨win, []⟩] } else x)).emitWindow d ⟨win, []⟩ false

/-- Retire a Triplet lane, unless two remain; at the threshold with two left only TPL_DEGRADED is raised (R306). -/
def State.retireLane (s : State) (d l : Nat) (forced : Bool) : State :=
  if !bit (s.laneMask d) l then s
  else if (s.lanes d).length < 3 then (if forced then s else s.raise 107)
  else
    let x := if d = 0 then F.TPL_STATUS_LIVE_FQ else F.TPL_STATUS_LIVE_QF
    let g := if d = 0 then F.TPL_STATUS_DEGRADED_FQ else F.TPL_STATUS_DEGRADED_QF
    let s1 := ((s.setF x (putBit (s.laneMask d) l false)).setF g 1).setF F.TPL_STATUS_RETIRED 1
    ((s1.raiseD 106 (location 3 (1 - d) 0xF (0x30 + d) l naMacro naCell)).raise 107).cond 0 true

/-- The effect of a write of TPL_RETIRE: each 1 retires its lane unless fewer than two would remain. -/
def State.tplRetire (s : State) (v : Nat) : State :=
  (List.range 6).foldl (fun (u : State) i => if bit v i then u.retireLane (i / 3) (i % 3) true else u) s

/-- A lane of direction d loses a vote (R304): counted, and at RETIRE_THR within 2^20 picas the lane is retired (R306). -/
def State.disagree (s : State) (d l : Nat) : State :=
  let x := s.dir d
  let e := s.pica.num :: mgetD x.errs l []
  let hit := reached e s.pica.num (s.f F.TPL_CTRL_RETIRE_THR)
  let s1 := (s.sat F.TPL_LANE_STAT_DISAGREE 1 d l).setDir d { x with errs := mset x.errs l (if hit then [] else e) }
  if hit then s1.retireLane d l false else s1

/-- The bitwise majority of three words. -/
def maj (a b c : W64) : W64 := (a &&& b) ||| (a &&& c) ||| (b &&& c)

/-- The bitwise majority of three copies; a word that a copy lacks counts as zeros. -/
def majWords (a b c : List W64) : List W64 :=
  (List.range (Nat.max a.length (Nat.max b.length c.length))).map fun i => maj (a.getD i 0) (b.getD i 0) (c.getD i 0)

/-- Bits hi to lo of a window's header. -/
def headOf (w : List W64) (hi lo : Nat) : Nat := bits (w.headD 0).toNat hi lo

/-- A window's CRC passes. -/
def voteOk (w : List W64) : Bool :=
  !w.isEmpty && headOf w 31 0 == (Config.voteCrc (headOf w 63 32) w.tail).toNat

/-- What the vote of R304 gives: an accepted copy, or none with the header that was seen. -/
def State.vote (s : State) (d : Nat) (cp : List (Option (List W64))) : Option (List W64) × List W64 × State :=
  let ls := s.lanes d
  let have' := ls.filterMap fun l => (cp.getD l none).map fun w => (l, w)
  if ls.length = 3 ∧ have'.length = 3 then
    let v := majWords ((have'.getD 0 (0, [])).2) ((have'.getD 1 (0, [])).2) ((have'.getD 2 (0, [])).2)
    let s1 := have'.foldl (fun (u : State) x => if x.2 = v then u else u.disagree d x.1) s
    if voteOk v then (some v, v, s1) else (none, v, ls.foldl (fun (u : State) l => u.disagree d l) s1)
  else
    let good := have'.filter fun x => voteOk x.2
    let agrees := fun l => good.any fun x => x.1 == l && some x.2 == good.head?.map (·.2)
    let s1 := ls.foldl (fun (u : State) l => if agrees l then u else u.disagree d l) s
    match good with
    | x :: _ => (some x.2, x.2, s1)
    | [] => (none, ((have'.head?.map (·.2)).getD []), ls.foldl (fun (u : State) l => u.sat F.TPL_LANE_STAT_REPLAY 1 d l) s1)

/-- The windows after window `ack` that the sender still keeps. -/
def afterAck (h : List VoteWin) (ack : Nat) : List VoteWin :=
  match h.findIdx? fun w => w.win == ack with
  | some i => h.drop (i + 1)
  | none => h

/-- The sender of direction d takes ACK and NAK: acknowledged windows are let go, a replay resends the rest (R305). -/
def State.takeAck (s : State) (d ack : Nat) (nak : Bool) : State :=
  let h := afterAck (s.dir d).hist ack
  let s1 := s.setDir d { s.dir d with hist := h }
  if nak then h.foldl (fun (u : State) w => u.emitWindow d w true) s1 else s1

/-- The descriptors of an accepted window arrive: groups at the buffer manager, scheduled frames at the egress editor. -/
def State.deliverDescs (s : State) (d : Nat) (ds : List W64) : State :=
  ds.foldl (fun (u : State) w =>
    if w.toNat % 4 ≠ 0 then u
    else if d = 0 then
      match mget u.buf.flight (w.toNat / 4) with
      | none => u
      | some g => { u with buf := { u.buf with flight := merase u.buf.flight (w.toNat / 4)
                                               desc := mset u.buf.desc g.slice (mgetD u.buf.desc g.slice [] ++ [g]) } }
    else
      match mget u.que.flight (w.toNat / 4) with
      | none => u
      | some x =>
        { u with que := { u.que with flight := merase u.que.flight (w.toNat / 4), toEdit := u.que.toEdit ++ [x] } }) s

/-- A window is accepted (R303 to R305): it is the last good one, its pica mark is taken unless it is a replay (R30,
R325), and its acknowledgement and descriptors take effect. -/
def State.acceptWindow (s : State) (d : Nat) (w : List W64) : State :=
  let s1 := s.setDir d { s.dir d with good := some (headOf w 63 56), fails := 0, nak := false }
  let s2 := if d = 0 ∧ headOf w 46 46 = 0 then s1.mark .qd (headOf w 63 56) else s1
  (s2.takeAck (1 - d) (headOf w 55 48) (headOf w 47 47 = 1)).deliverDescs d w.tail

/-- The WIN that the receiver of a direction waits for: the one after the last good window, or the first one sent. -/
def TplDir.nextWin (x : TplDir) : Option Nat :=
  match x.good with
  | some g => some ((g + 1) % 256)
  | none => x.hist.head?.map (·.win)

/-- A window that failed while a replay is asked for is the replay of the failed window: its header says so. Of one that came
with no copy nothing says which it was: a free value decides (log entry 24). -/
def State.replayFailed (s : State) (d : Nat) (seen : List W64) : Bool × State :=
  if seen.isEmpty then (s.fresh.1.toNat % 2 == 1, s.fresh.2)
  else (headOf seen 46 46 == 1 && (match (s.dir d).nextWin with | some w => headOf seen 63 56 == w | none => true), s)

/-- A failed window asks for a replay; the ninth failure in a row of one window, its eighth replay, is fatal (R302, R305). -/
def State.failWindow (s : State) (d : Nat) (seen : List W64) : State :=
  let x := s.dir d
  if !x.nak then s.setDir d { x with nak := true, fails := 1 }
  else
    let r := s.replayFailed d seen
    if !r.1 then r.2
    else
      let s1 := r.2.setDir d { x with fails := x.fails + 1 }
      if 8 < x.fails + 1 then s1.fatal (if d = 0 then codeTplFQ else codeTplQF) else s1

/-- An accepted copy is one the receiver waits for: while a replay is asked for, only the replay of the failed window; a
replay is otherwise taken only in sequence (R305). -/
def TplDir.wants (x : TplDir) (w : List W64) : Bool :=
  let resend := headOf w 46 46 == 1
  let next := match x.nextWin with | some n => headOf w 63 56 == n | none => true
  if x.nak then resend && next else !resend || next

/-- Meaning of VOTE_WINDOW_RECEIVE: the copies of a window are voted, and it is accepted, discarded or asked for again. -/
def execVoteWindowReceive (dir : Fin 2) (copies : List (Option (List W64))) (s : State) : Ans :=
  s.onCore fun s =>
    match s.vote dir.val copies with
    | (some w, _, s1) => if (s1.dir dir.val).wants w then s1.acceptWindow dir.val w else s1
    | (none, seen, s1) => s1.failWindow dir.val seen

/-! ### Pairing (R213) -/

/-- QD takes a transfer's bytes from the slice's FIFO. -/
def State.chanTake (s : State) (sl bytes : Nat) : State :=
  { s with buf := { s.buf with chanBytes := mset s.buf.chanBytes sl (mgetD s.buf.chanBytes sl 0 - bytes) } }

/-- An unpaired group or transfer is dropped under BUF_PAIR_LOST. -/
def State.pairLost (s : State) (sl : Nat) (w : Waiting) : State :=
  let s1 := match w.group with
    | some g => g.outs.foldl (fun (u : State) p => u.dropPkt 0x62 p) s
    | none => (s.drop 0x62 w.bytes 128).chanTake sl w.bytes
  (s1.sat F.BUF_DROPS_PAIR_LOST 1).raise 448

/-- A group or transfer of tag `w.tag` arrives: it meets its partner, or waits for it. -/
def State.pair (s : State) (sl : Nat) (w : Waiting) : State :=
  let l := mgetD s.buf.wait sl []
  match l.find? fun x => x.tag == w.tag && x.group.isSome != w.group.isSome with
  | none => { s with buf := { s.buf with wait := mset s.buf.wait sl (l ++ [w]) } }
  | some x =>
    let s1 := { s with buf := { s.buf with wait := msetD s.buf.wait sl [] (l.erase x) } }
    match w.group, x.group with
    | some g, _ => (s1.chanTake sl x.bytes).storeGroup g
    | _, some g => (s1.chanTake sl w.bytes).storeGroup g
    | _, _ => s1

/-- Meaning of DESCRIPTOR_GROUP_ARRIVAL: a slice's next group is paired with its data; a tag out of turn is lost. -/
def execDescriptorGroupArrival (slice : Fin 8) (s : State) : Ans :=
  s.onCore fun s =>
    let sl := slice.val
    match mgetD s.buf.desc sl [] with
    | [] => s
    | g :: rest =>
      let turn := mgetD s.buf.tagIn sl 0 == g.tag
      let s1 := { s with buf := { s.buf with desc := msetD s.buf.desc sl [] rest, tagIn := mset s.buf.tagIn sl ((g.tag + 1) % 4096) } }
      let w : Waiting := ⟨g.tag, some g, 0, s.pica.num⟩
      if turn then s1.pair sl w else s1.pairLost sl w

/-- Meaning of FRAME_DATA_ARRIVAL: a slice channel's next transfer is paired with its group and stored. -/
def execFrameDataArrival (slice : Fin 8) (s : State) : Ans :=
  s.onCore fun s =>
    let sl := slice.val
    match mgetD s.buf.chan sl [] with
    | [] => s
    | t :: rest =>
      let turn := mgetD s.buf.tagData sl 0 == t.tag
      let s1 := { s with buf := { s.buf with chan := msetD s.buf.chan sl [] rest, tagData := mset s.buf.tagData sl ((t.tag + 1) % 4096) } }
      let w : Waiting := ⟨t.tag, none, t.bytes, s.pica.num⟩
      if turn then s1.pair sl w else s1.pairLost sl w

/-- Meaning of PAIR_TIMEOUT: what has waited 64 picas for its partner is lost. -/
def execPairTimeout (slice : Fin 8) (s : State) : Ans :=
  s.onCore fun s =>
    let sl := slice.val
    let l := mgetD s.buf.wait sl []
    let late := l.filter fun w => decide (w.since + 64 ≤ s.pica.num)
    let s1 := { s with buf := { s.buf with wait := msetD s.buf.wait sl [] (l.filter fun w => !decide (w.since + 64 ≤ s.pica.num)) } }
    late.foldl (fun (u : State) w => u.pairLost sl w) s1

end Sys2Proof.Machine
end

