-- ==== Sys2Proof/Machine/Que.lean ====
section
/-! DEFINITION. Queues and admission, the spill path, replication, policing, the scheduler and its shapers (chapter 11, R217
to R220). -/
namespace Sys2Proof.Machine

/-! ### Queues and nodes (R248 to R250, R261) -/

/-- A QID of the VOQ range (R248). -/
def State.isVoq (s : State) (q : Nat) : Bool := decide (q < s.f F.QUE_CTRL_EGQ_BASE * 65536)
/-- A queue's descriptor; 0 where it has none. -/
def State.qDesc (s : State) (q : Nat) : Nat := mgetD s.que.desc q 0
/-- A queue is valid. -/
def State.qValid (s : State) (q : Nat) : Bool := bit (s.qDesc q) 63
/-- A queue's frames and counts. -/
def State.qOf (s : State) (q : Nat) : Queue := mgetD s.que.q q {}
/-- Store a queue. -/
def State.setQ (s : State) (q : Nat) (x : Queue) : State := { s with que := { s.que with q := msetD s.que.q q {} x } }

/-- The key of a node: level and number. -/
def nodeKey (l m : Nat) : Nat := l * 2 ^ 18 + m
/-- A node's two words. -/
def State.nodeOf (s : State) (l m : Nat) : Nat × Nat := mgetD s.que.node (nodeKey l m) (0, 0)
/-- A node is valid. -/
def State.nodeValid (s : State) (l m : Nat) : Bool := bit (s.nodeOf l m).1 63
/-- A node's parent. -/
def State.nodeParent (s : State) (l m : Nat) : Nat := bits (s.nodeOf l m).2 15 0

/-- The L0 node above an egress queue, where every node on the way is valid. -/
def State.queueL0 (s : State) (q : Nat) : Option Nat :=
  let n3 := bits (s.qDesc q) 17 0
  let n2 := s.nodeParent 3 n3
  let n1 := s.nodeParent 2 n2
  let n0 := s.nodeParent 1 n1
  if s.nodeValid 3 n3 && s.nodeValid 2 n2 && s.nodeValid 1 n1 && s.nodeValid 0 n0 then some n0 else none

/-- An L0 node is a line port's. -/
def lineNode (n : Nat) : Bool := decide (n < 128)
/-- An L0 node is a punt ring's. -/
def puntNode (n : Nat) : Bool := decide (128 ≤ n) && decide (n < 144)

/-- A frame's source may name the queue (R249, R257, Table 11-1). -/
def State.mayName (s : State) (k : PktKind) (q : Nat) : Bool :=
  s.qValid q &&
  match k with
  | .send | .mirror | .replica false =>
    s.isVoq q || (match s.queueL0 q with | some n => puntNode n | none => false)
  | .punt r _ => !s.isVoq q && s.queueL0 q == some (128 + r)
  | .fabric | .replica true => !s.isVoq q && (match s.queueL0 q with | some n => lineNode n | none => false)

/-- Stored bytes of frames. -/
def bytesOf (l : List Pkt) : Nat := l.foldl (fun a p => a + p.bytes.length) 0

/-- A queue's bundles that wait for HBM. -/
def State.fullOf (s : State) (q : Nat) : List Bundle := s.buf.full.filterMap fun b => if b.1 = q then some b.2 else none

/-- ONDIE of a queue. -/
def State.onDie (s : State) (q : Nat) : Nat :=
  let x := s.qOf q
  bytesOf x.frames + bytesOf x.opened + (s.fullOf q).foldl (fun a b => a + bytesOf b.frames) 0

/-- TOTAL of a queue. -/
def State.total (s : State) (q : Nat) : Nat :=
  s.onDie q + bytesOf (s.qOf q).restored + (s.qOf q).hbm.foldl (fun a b => a + bytesOf b.frames) 0

/-- FRAMES of a queue. -/
def State.frameCount (s : State) (q : Nat) : Nat :=
  let x := s.qOf q
  x.frames.length + x.opened.length + x.restored.length + x.hbm.foldl (fun a b => a + b.frames.length) 0 +
    (s.fullOf q).foldl (fun a b => a + b.frames.length) 0

/-- The limits of a queue's profile in bytes: ONDIE_MAX, SPILL_AT, RESTORE_AT, TOTAL_MAX, YELLOW_MAX. -/
def State.limits (s : State) (q : Nat) : Nat × Nat × Nat × Nat × Nat :=
  let k := bits (s.qDesc q) 61 56
  (s.f F.QUE_CFG_LIMIT_ONDIE_MAX k * 64, s.f F.QUE_CFG_SPILL_SPILL_AT k * 1024, s.f F.QUE_CFG_SPILL_RESTORE_AT k * 1024,
   s.f F.QUE_CFG_TOTAL_TOTAL_MAX k * 4096, s.f F.QUE_CFG_YELLOW_YELLOW_MAX k * 4096)

/-! ### Drops -/

/-- A frame is dropped under QUE_BAD_QID (R249). -/
def State.badQid (s : State) (p : Pkt) : State :=
  ((s.sat F.QUE_DROPS_BAD_QID 1).setF F.QUE_STATUS_BAD_QID 1).dropPkt 0x70 p

/-- A frame is dropped at queue q, which counts it (Table 16-3). -/
def State.queueDrop (s : State) (q code : Nat) (p : Pkt) : State :=
  (s.post spQueue q [0, 0, 1, p.bytes.length + 4]).dropPkt code p

/-- A drop under one of the three limit reasons. -/
def State.limitDrop (s : State) (q code : Nat) (p : Pkt) : State :=
  ((s.sat F.QUE_DROPS_LIMIT 1).setF F.QUE_STATUS_LIMIT 1).queueDrop q code p

/-! ### The spill path (R217 to R220) -/

/-- Bytes of a frame's record in a bundle (R217). -/
def recordLen (p : Pkt) : Nat := 64 + (p.bytes.length + 31) / 32 * 32

/-- Record bytes of a bundle. -/
def bundleRoom : Nat := 4064

/-- The spill path is available (R219). -/
def State.spillOpen (s : State) : Bool :=
  decide (s.buf.full.length < 6) && decide (s.buf.full.length + 1 ≤ s.bundlesFree)

/-- Where the records that end in a bundle lie: the first from 0 where it continues, and each behind the one before. -/
def recordSpans (lead : Nat) : List Pkt → List (Nat × Nat)
  | [] => []
  | p :: l =>
    let n := if lead = 0 then recordLen p else lead
    (0, n) :: (l.foldl (fun (a : Nat × List (Nat × Nat)) x => (a.1 + recordLen x, a.2 ++ [(a.1, a.1 + recordLen x)])) (n, [])).2

/-- A frame joins its queue's open bundle; bundles that its record fills wait for HBM. A frame belongs to the bundle in
which its record ends (R217, R218). -/
def State.spillJoin (s : State) (q : Nat) (p : Pkt) : State :=
  let x := s.qOf q
  let used := x.openUsed + recordLen p
  let n := used / bundleRoom
  let left := used % bundleRoom
  if n = 0 then s.setQ q { x with opened := x.opened ++ [p], openUsed := used }
  else
    let bundle := fun (i : Nat) =>
      let ends := decide (i + 1 = n ∧ left = 0)
      let fs := (if i = 0 then x.opened else []) ++ if ends then [p] else []
      let cont := decide (0 < i) || decide (0 < x.openLead)
      { qid := q, used := 4096, cont := cont, frames := fs, tail := !ends
        records := if i = 0 then x.opened.length + 1 - b2n (decide (0 < x.openLead)) else 0
        spans := recordSpans (if 0 < i then bundleRoom else x.openLead) fs : Bundle }
    let s1 := s.setQ q { x with opened := if left = 0 then [] else [p], openUsed := left, openLead := left }
    { s1 with buf := { s1.buf with full := s1.buf.full ++ (List.range n).map fun i => (q, bundle i) } }

/-- The on-die bytes ahead of a queue's spilled frames ask for a restore (R253). -/
def State.wantsRestore (s : State) (q : Nat) : Bool :=
  let b := bytesOf (s.qOf q).frames
  let at_ := (s.limits q).2.2.1
  if at_ = 0 then b == 0 else decide (b < at_)

/-- A bundle returns to the free list. -/
def State.freeBundle (s : State) (h : Nat) : State :=
  let s1 := { s with buf := { s.buf with bundleFree := s.buf.bundleFree ++ [h] } }
  s1.setF F.BUF_SPILL_FREE s1.bundlesFree

/-- The record that continued from restored bundles has come to its end: they return to the free list (R220). -/
def State.freeTails (s : State) (q : Nat) : State :=
  let x := s.qOf q
  if x.tails.isEmpty then s
  else x.tails.foldl (fun (u : State) b => u.freeBundle b.handle) (s.setQ q { x with tails := [] })

/-- The queue leaves spill when its restore reaches the open bundle (R218). -/
def State.settleSpill (s : State) (q : Nat) : State :=
  let x := s.qOf q
  if x.spilling && x.hbm.isEmpty && x.restoring.isNone && x.restored.isEmpty && (s.fullOf q).isEmpty && s.wantsRestore q then
    (s.setQ q { x with frames := x.frames ++ x.opened, opened := [], openUsed := 0, openLead := 0, spilling := false }).freeTails q
  else s

/-- Count an enqueued frame (Table 16-3). -/
def State.countEnq (s : State) (q : Nat) (p : Pkt) : State := s.post spQueue q [1, p.bytes.length + 4, 0, 0]

/-- Admission of a frame whose colour is decided to a queue it may name (R252). -/
def State.enqueue (s : State) (q : Nat) (p : Pkt) : State :=
  let L := p.bytes.length
  let m := s.limits q
  let x := s.qOf q
  if p.yellow ∧ m.2.2.2.2 < s.total q + L then
    (s.sat F.SHP_POL_DROPS_YELLOW 1).limitDrop q 0x74 p
  else if m.2.2.2.1 < s.total q + L then s.limitDrop q 0x75 p
  else if x.spilling ∨ (m.2.1 ≠ 0 ∧ m.2.1 < s.onDie q + L) then
    let s1 := s.setQ q { x with spilling := true }
    if s.spillOpen ∨ s.onDie q + L ≤ m.1 then ((s1.countEnq q p).spillJoin q p).settleSpill q
    else (s1.setF F.BUF_STATUS_SPILL_FULL 1).queueDrop q 0x64 p
  else if m.1 < s.onDie q + L then s.limitDrop q 0x76 p
  else (s.countEnq q p).setQ q { x with frames := x.frames ++ [p] }

/-- LA of a bundle (Table 10-2). -/
def bundleLA (h : Nat) : Nat := 0x180000000 + h * 4096

/-- A bundle is written under a handle taken from the free list: the frames whose chain runs through an uncorrectable link
entry are dropped (R216), the others release their buffers (R218). -/
def State.bundleOut (s : State) (q h : Nat) (b : Bundle) : State :=
  let keep := (b.frames.zip b.spans).filter fun x => !s.pktBad x.1
  let s1 := (b.frames.filter s.pktBad).foldl (fun (u : State) p => u.queueDrop q 0x63 p) s
  let s2 := (keep.map (·.1)).foldl State.releasePkt s1
  let x := s2.qOf q
  let old := match x.hbm.getLast? with
    | some l => x.hbm.dropLast ++ [{ l with next := h }]
    | none => []
  let new := { b with handle := h, frames := keep.map fun x => { x.1 with chains := [], body := 0 }, spans := keep.map (·.2) }
  ((s2.setQ q { x with hbm := old ++ [new] }).hbmWritten (bundleLA h) 4096).setF F.BUF_SPILL_FREE s2.bundlesFree

/-- Meaning of BUNDLE_WRITE: the oldest full bundle is written to HBM, at most 6 a pica (R218, R219). -/
def execBundleWrite (s : State) : Ans :=
  s.onCore fun s =>
    match s.buf.full with
    | [] => s
    | (q, b) :: rest =>
      if 6 ≤ s.buf.wrote ∨ s.bundlesFree = 0 then s
      else
        let fresh := decide (s.buf.bundleFresh < s.spillTotal)
        let h := if fresh then s.buf.bundleFresh else s.buf.bundleFree.headD 0
        s.onHbm 0 false [(bundleLA h, 4096)] fun s =>
          { s with buf := { s.buf with
            full := rest, wrote := s.buf.wrote + 1
            bundleFresh := if fresh then s.buf.bundleFresh + 1 else s.buf.bundleFresh
            bundleFree := if fresh then s.buf.bundleFree else s.buf.bundleFree.tail } }.bundleOut q h b

/-- Restored frames go into buffers in order, with the reserve (R210, R220); at the first failure the rest waits. A bundle
whose last record continues is kept until that record ends. -/
def State.restoreFrames (s : State) (q : Nat) : List Pkt → State
  | [] =>
    let x := s.qOf q
    match x.restoring with
    | some b =>
      if b.tail then (s.setQ q { x with restored := [], restoring := none, tails := x.tails ++ [b] }).settleSpill q
      else ((s.setQ q { x with restored := [], restoring := none }).freeBundle b.handle).settleSpill q
    | none => (s.setQ q { x with restored := [] }).settleSpill q
  | p :: rest =>
    match s.storeChain false 0 1 p.bytes.length with
    | (.chain h, s1) =>
      let x := s1.qOf q
      ((s1.setQ q { x with frames := x.frames ++ [{ p with chains := h.toList }] }).freeTails q).restoreFrames q rest
    | (_, s1) => s1.setQ q { s1.qOf q with restored := p :: rest }

/-- Record bytes of a bundle lie in a poisoned burst. -/
def State.spanPoisoned (s : State) (h : Nat) (x : Nat × Nat) : Bool := s.poisoned (bundleLA h + 32 + x.1) (x.2 - x.1)

/-- The places among a bundle's frames of those whose record is poisoned (R220, R235): in the bundle, or, of a record that
continues, in the bundles it comes from. -/
def State.poisonedFrames (s : State) (tails : List Bundle) (b : Bundle) : List Nat :=
  let before := tails.any fun t => s.spanPoisoned t.handle ((t.spans.getLast?.map (·.2)).getD 0, bundleRoom)
  (List.range b.frames.length).filter fun i =>
    s.spanPoisoned b.handle (b.spans.getD i (0, 0)) || (i == 0 && b.cont && before)

/-- Drop the poisoned records of a bundle under BUF_SPILL_ERR: the frames that are left, and the state (R220). -/
def State.dropPoisoned (s : State) (q : Nat) (l : List Pkt) (bad : List Nat) : List Pkt × State :=
  (l.zipIdx.filterMap fun x => if bad.contains x.2 then none else some x.1,
   l.zipIdx.foldl (fun (u : State) x => if bad.contains x.2 then u.queueDrop q 0x65 x.1 else u) s)

/-- Meaning of BUNDLE_RESTORE: a queue's next bundle is read from HBM, at most 6 a pica, when its on-die frames fall below
the limit (R219, R220, R253). `bad` names the bundle's frames whose record comes back uncorrectable in this read. -/
def execBundleRestore (qid : BitVec 20) (bad : List Nat) (s : State) : Ans :=
  s.onCore fun s =>
    let q := qid.toNat
    let x := s.qOf q
    match x.hbm with
    | [] => s
    | b :: rest =>
      if !x.spilling ∨ x.restoring.isSome ∨ !s.wantsRestore q ∨ 6 ≤ s.buf.read then s
      else s.onHbm 1 true [(bundleLA b.handle, 4096)] fun s =>
        let lost := bad ++ s.poisonedFrames x.tails b
        let s1 := { s with buf := { s.buf with read := s.buf.read + 1 } }.setQ q { x with hbm := rest, restoring := some b }
        let r := s1.dropPoisoned q b.frames lost
        (if b.cont && lost.contains 0 then r.2.freeTails q else r.2).restoreFrames q r.1

/-- Meaning of RESTORE_RETRY: a restore that failed to allocate tries again (R220). -/
def execRestoreRetry (qid : BitVec 20) (s : State) : Ans :=
  s.onCore fun s =>
    let x := s.qOf qid.toNat
    if x.restored.isEmpty then s else s.restoreFrames qid.toNat x.restored

/-! ### Policing (R258 to R260) -/

/-- The colours. -/
inductive Colour where
  | green | yellow | red
  deriving DecidableEq, Repr

/-- A policer acts on a frame of B bytes at pica t (R260): its colour and the counts it leaves. -/
def police (w : Nat × Nat) (k : Tokens) (b t : Nat) : Colour × Tokens :=
  let dt := t - k.last
  let cbs := bits w.1 47 32 * 64000
  let ebs := bits w.1 31 16 * 64000
  let cir := bits w.2 63 40
  let pir := bits w.2 39 16
  let n := b * 1000
  if bit w.1 62 then
    let tc := Nat.min cbs (k.c + cir * dt)
    let tp := Nat.min ebs (k.e + pir * dt)
    if tp < n then (.red, ⟨tc, tp, t⟩)
    else if tc < n then (.yellow, ⟨tc, tp - n, t⟩)
    else (.green, ⟨tc - n, tp - n, t⟩)
  else
    let a := k.c + cir * dt
    let tc := Nat.min cbs a
    let te := Nat.min ebs (k.e + a - tc)
    if n ≤ tc then (.green, ⟨tc - n, te, t⟩)
    else if n ≤ te then (.yellow, ⟨tc, te - n, t⟩)
    else (.red, ⟨tc, te, t⟩)

/-- The colour of an arrival: a valid policer named with POL_EN set acts and counts it; else it is green (R252, R258). -/
def State.colour (s : State) (p : Pkt) : Colour × State :=
  if !p.polEn then (.green, s)
  else
    match mget s.que.pol p.policer with
    | none => (.green, s)
    | some w =>
      if !bit w.1 63 then (.green, s)
      else
        let k := mgetD s.que.tok p.policer ⟨0, 0, 0⟩
        let r := police w k (p.bytes.length + 4) s.pica.num
        let s1 := { s with que := { s.que with tok := mset s.que.tok p.policer r.2 } }
        (r.1, s1.post spPolicer p.policer [b2n (r.1 == .green), b2n (r.1 == .yellow), b2n (r.1 == .red)])

/-- YELLOW_DROP of a frame's policer. -/
def State.yellowDrop (s : State) (p : Pkt) : Bool :=
  match mget s.que.pol p.policer with | some w => bit w.1 61 | none => false

/-- A policed frame is dropped. -/
def State.policeDrop (s : State) (red : Bool) (p : Pkt) (q : Option Nat) : State :=
  let s1 := if red then (s.sat F.SHP_POL_DROPS_RED 1).setF F.SHP_STATUS_POL_RED 1 else s.sat F.SHP_POL_DROPS_YELLOW 1
  let code := if red then 0x72 else 0x73
  match q with | some n => s1.queueDrop n code p | none => s1.dropPkt code p

/-! ### Admission and replication (R252, R255 to R257) -/

/-- A multicast frame enters the replicator's FIFO of 4,096, or drops under QUE_MC_FULL (R256). -/
def State.toReplicator (s : State) (p : Pkt) (egress : Bool) : State :=
  if 4096 ≤ s.que.mc.length then ((s.sat F.QUE_MC_STATUS_DROPS 1).setF F.QUE_STATUS_MC_FULL 1).dropPkt 0x77 p
  else
    let l := s.que.mc ++ [⟨p, egress⟩]
    let s1 := { s with que := { s.que with mc := l } }
    if s1.f F.QUE_MC_STATUS_PEAK < l.length then s1.setF F.QUE_MC_STATUS_PEAK l.length else s1

/-- Police a frame, and carry on with its colour unless it is dropped. -/
def State.policed (s : State) (p : Pkt) (q : Option Nat) (next : Pkt → State → State) : State :=
  match s.colour p with
  | (.red, s1) => s1.policeDrop true p q
  | (.yellow, s1) => if s1.yellowDrop p then s1.policeDrop false p q else next { p with yellow := true } s1
  | (.green, s1) => next { p with yellow := false } s1

/-- A frame that names one queue is admitted to it (R252). -/
def State.admitTo (s : State) (q : Nat) (p : Pkt) : State :=
  if s.mayName p.kind q then s.policed p (some q) fun p s => s.enqueue q { p with qid := q } else s.badQid p

/-- A frame from FD is admitted: to the replicator, to its ring's queue, or to the queue it names. -/
def State.admitFd (s : State) (p : Pkt) : State :=
  match p.kind with
  | .punt r _ => if s.fb F.QUE_PUNT_QID_EN r then s.admitTo (s.f F.QUE_PUNT_QID_QID r) p else s.badQid p
  | _ => if p.mc then s.policed p none fun p s => s.toReplicator p false else s.admitTo p.qid p

/-- Meaning of QUEUE_ADMIT: the queue manager admits the oldest stored arrival. -/
def execQueueAdmit (s : State) : Ans :=
  s.onCore fun s =>
    match s.que.arrivals with
    | [] => s
    | p :: rest => ({ s with que := { s.que with arrivals := rest } }).admitFd p

/-- One replica is admitted without policing, with the colour its frame has (R255). -/
def State.admitReplica (s : State) (p : Pkt) (egress : Bool) (m : Nat) : State :=
  let q := bits m 19 0
  let r := { p with kind := .replica egress, mc := false, qid := q, adj := if bit m 62 then bits m 57 40 else p.adj }
  if s.mayName r.kind q then s.enqueue q r else s.badQid r

/-- The valid members of a group, in list order; none where its head is not valid (R255). -/
def State.groupMembers (s : State) (g : Nat) : List Nat :=
  let h := mgetD s.que.heads g 0
  if bit h 63 then
    ((List.range (bits h 31 20)).map fun i => mgetD s.que.members (bits h 19 0 + i) 0).filter fun m => bit m 63
  else []

/-- What a read of a group's head and of the member list it names asks of HBM (R255). -/
def State.groupSpans (s : State) (g : Nat) : List (Nat × Nat) :=
  let h := mgetD s.que.heads g 0
  (0xA4000000 + 8 * g, 8) :: (if bit h 63 then [(0xA4200000 + 8 * bits h 19 0, 8 * bits h 31 20)] else [])

/-- Replicas of a frame are made for members of its list, while the pica's 128 last; the rest follows (R256). -/
def State.mcServe (s : State) (x : McItem) (ms : List Nat) : State :=
  let n := 128 - s.que.replicas
  let s1 := { s with que := { s.que with replicas := s.que.replicas + (ms.take n).length
                                         mcWork := if (ms.drop n).isEmpty then none else some (x, ms.drop n) } }
  (ms.take n).foldl (fun (u : State) m => u.admitReplica x.p x.egress m) s1

/-- Meaning of MC_REPLICATE: the oldest frame of the replicator becomes one replica for each valid member of the list its head
named when it was read, once the owner counts have been raised; at most 128 replicas in a pica (R214, R256, R257). A poisoned
head or list makes none: the frame drops under HBM_POISON (R235, log entry 110). -/
def execMcReplicate (s : State) : Ans :=
  s.onCore fun s =>
    if 128 ≤ s.que.replicas then s
    else match s.que.mcWork with
    | some (x, ms) => s.mcServe x ms
    | none =>
      match s.que.mc with
      | [] => s
      | x :: rest =>
        s.onHbm 2 true (s.groupSpans x.p.group) fun s =>
          let s1 := { s with que := { s.que with mc := rest } }
          if s1.anyPoison (s1.groupSpans x.p.group) then (s1.drop 0x67 x.p.bytes.length x.p.port).releasePkt x.p
          else
          match s1.groupMembers x.p.group with
          | [] => s1.badQid x.p
          | ms =>
            match s1.addOwners x.p ms.length with
            | none => (ms.foldl (fun (u : State) _ => u.drop 0x66 x.p.bytes.length x.p.port) s1).releasePkt x.p
            | some s2 => s2.mcServe x ms

/-! ### Selection (R263 to R265) -/

/-- A node's buckets. -/
def State.bucketOf (s : State) (l m : Nat) : Bucket := mgetD s.que.bucket (nodeKey l m) {}
/-- CIR in force, in millibytes a pica. -/
def Bucket.cir (b : Bucket) : Nat := bits b.w1 63 40
/-- PIR in force. -/
def Bucket.pir (b : Bucket) : Nat := bits b.w1 39 16
/-- Eligible in the excess tier (R263). -/
def Bucket.peak (b : Bucket) : Bool := decide (0 < b.p) || b.pir == 0
/-- Eligible in the committed tier (R263). -/
def Bucket.committed (b : Bucket) : Bool := b.cir != 0 && decide (0 < b.c) && b.peak

/-- Signed OVERHEAD of an L0 node. -/
def overhead (w0 : Nat) : Int := let v := bits w0 15 9; if v < 64 then (v : Int) else (v : Int) - 128

/-- The accounted length of a frame under an L0 node (R265). -/
def State.accounted (s : State) (n0 : Nat) (p : Pkt) : Nat :=
  Int.toNat (max 1 ((p.bytes.length : Int) + 4 + overhead (s.nodeOf 0 n0).1 + p.lenAdj))

/-- GATE of a queue. -/
def State.gateOf (s : State) (q : Nat) : Nat := bits (s.qDesc q) 52 50

/-- The PIR from which a frame's wire time under an L0 node is computed (R271): the one in force, or while that is 0 the one
written, which comes into force with the next refill (log entry 97). -/
def State.wirePir (s : State) (n0 : Nat) : Nat :=
  if (s.bucketOf 0 n0).pir = 0 then bits (s.nodeOf 0 n0).2 39 16 else (s.bucketOf 0 n0).pir

/-- The queue's gate allows its head frame at this time (R271). -/
def State.gateOpen (s : State) (n0 q : Nat) (p : Pkt) : Bool :=
  !lineNode n0 || !s.fb F.SHP_GALLEY_CTRL_EN n0 ||
    fitsSpan ((s.galley n0).openFor (s.gateOf q) s.tb.total (s.f F.SHP_GALLEY_CTRL_GAP_GATES n0))
      (s.accounted n0 p * 16000) (s.wirePir n0)

/-- The head frame can never pass its gate (R271). -/
def State.gateOversize (s : State) (n0 q : Nat) (p : Pkt) : Bool :=
  lineNode n0 && s.fb F.SHP_GALLEY_CTRL_EN n0 && (s.galley n0).running &&
    !fitsSpan ((s.galley n0).act.longest (s.gateOf q)) (s.accounted n0 p * 16000) (s.wirePir n0)

/-- A queue has work under an L0 node: a head frame on die that its gate allows. -/
def State.queueWork (s : State) (n0 q : Nat) : Bool :=
  s.qValid q && (match (s.qOf q).frames.head? with | some p => s.gateOpen n0 q p | none => false)

/-- The valid egress queues of an L3 node. -/
def State.queuesOf (s : State) (m : Nat) : List Nat :=
  (s.que.desc.map (·.1)).filter fun q => !s.isVoq q && s.qValid q && bits (s.qDesc q) 17 0 == m

/-- A rule of eligibility: tier (0 committed, 1 excess), level and node. -/
abbrev Elig := Nat → Nat → Nat → Bool

/-- The shapers' eligibility (R263). -/
def State.shaped (s : State) : Elig := fun t l c =>
  if t = 0 then (s.bucketOf l c).committed else (s.bucketOf l c).peak

/-- The valid nodes of level l + 1 whose parent is node m of level l. -/
def State.childrenOf (s : State) (l m : Nat) : List Nat :=
  s.que.node.filterMap fun kv =>
    if kv.1 / 2 ^ 18 = l + 1 ∧ bit kv.2.1 63 ∧ bits kv.2.2 15 0 = m then some (kv.1 % 2 ^ 18) else none

/-- A node has work, k levels above L3, where w tells which queues have. -/
def State.nodeWork (s : State) (w : Nat → Bool) : Nat → Nat → Bool
  | 0, m => (s.queuesOf m).any w
  | k + 1, m => (s.childrenOf (2 - k) m).any (s.nodeWork w k)

/-- A node is ready: its own selection would return a frame now (R263). What is eligible in the committed tier is so in the
excess tier. -/
def State.nodeReady (s : State) (w : Nat → Bool) (e : Elig) : Nat → Nat → Bool
  | 0, m => (s.queuesOf m).any w
  | k + 1, m => (s.childrenOf (2 - k) m).any fun c => e 1 (3 - k) c && s.nodeReady w e k c

/-- The key of a rotation: parent, tier (0 committed, 1 excess) and priority. -/
def rotKey (l m tier p : Nat) : Nat := (nodeKey l m * 2 + tier) * 8 + p

/-- A child's deficit in a rotation. -/
def State.deficitOf (s : State) (key c : Nat) : Int := mgetD s.que.deficit (key * 2 ^ 20 + c) 0
/-- Set a child's deficit. -/
def State.setDeficit (s : State) (key c : Nat) (v : Int) : State :=
  { s with que := { s.que with deficit := msetD s.que.deficit (key * 2 ^ 20 + c) 0 v } }

/-- A rotation follows its children's work: those that lost it leave with their deficit 0, those that gained it join at the
tail (R263). -/
def State.settleRot (s : State) (key : Nat) (work : List Nat) : State :=
  let old := mgetD s.que.rot key []
  let gone := old.filter fun c => !work.contains c
  let new := old.filter (work.contains ·) ++ work.filter fun c => !old.contains c
  let s1 := gone.foldl (fun (u : State) c => u.setDeficit key c 0) s
  { s1 with que := { s1.que with rot := msetD s1.que.rot key [] new } }

/-- dwrr (R263): go through the rotation from its head; `skipped` are children passed over. -/
def State.dwrr (s : State) (key : Nat) (weight : Nat → Nat) (ready : Nat → Bool) :
    Nat → List Nat → List Nat → Option Nat × State
  | 0, _, _ => (none, s)
  | _ + 1, _, [] => (none, s)
  | k + 1, skipped, c :: rest =>
    if !ready c then s.dwrr key weight ready k (skipped ++ [c]) rest
    else if 0 < s.deficitOf key c then
      (some c, { s with que := { s.que with rot := mset s.que.rot key (skipped ++ c :: rest) } })
    else
      let s1 := s.setDeficit key c (s.deficitOf key c + (weight c : Int) * 128)
      let rot := skipped ++ rest ++ [c]
      s1.dwrr key weight ready k [] rot

/-- PRIO and WEIGHT of a node below L0. -/
def State.nodePrio (s : State) (l c : Nat) : Nat := bits (s.nodeOf l c).1 62 60
/-- WEIGHT of a node below L0. -/
def State.nodeWeight (s : State) (l c : Nat) : Nat := bits (s.nodeOf l c).1 55 48
/-- PRIO of a queue. -/
def State.queuePrio (s : State) (q : Nat) : Nat := bits (s.qDesc q) 55 53
/-- WEIGHT of a queue. -/
def State.queueWeight (s : State) (q : Nat) : Nat := bits (s.qDesc q) 47 40

/-- Steps within which dwrr finds a child in a rotation of n: a deficit is above -2^16 and a weight adds at least 128. -/
def dwrrFuel (n : Nat) : Nat := (n + 1) * (n + 1) * 600

/-- Serve a rotation: its child, if one is ready. -/
def State.serve (s : State) (key : Nat) (weight : Nat → Nat) (ready : Nat → Bool) : Option Nat × State :=
  let r := mgetD s.que.rot key []
  if r.any ready then s.dwrr key weight ready (dwrrFuel r.length) [] r else (none, s)

/-- The first rotation in a list of (tier, priority) that serves a child. -/
def State.serveFirst (s : State) (l m : Nat) (weight : Nat → Nat) (ready : Nat → Nat → Bool) :
    List (Nat × Nat) → Option (Nat × Nat) × State
  | [] => (none, s)
  | (t, p) :: rest =>
    match s.serve (rotKey l m t p) weight (ready t) with
    | (some c, s1) => (some (c, t), s1)
    | (none, s1) => s1.serveFirst l m weight ready rest

/-- Tiers and priorities in the order of R263. -/
def tierOrder : List (Nat × Nat) := [0, 1].flatMap fun t => (List.range 8).map fun p => (t, p)

/-- A node of level l selects among its children (R263): the child and the tier. -/
def State.selectNode (s : State) (w : Nat → Bool) (e : Elig) (l m : Nat) : Option (Nat × Nat) × State :=
  let work := (s.childrenOf l m).filter (s.nodeWork w (2 - l))
  let s1 := tierOrder.foldl (fun (u : State) tp =>
    u.settleRot (rotKey l m tp.1 tp.2) (work.filter fun c => s.nodePrio (l + 1) c == tp.2)) s
  s1.serveFirst l m (s.nodeWeight (l + 1))
    (fun t c => e t (l + 1) c && s.nodeReady w e (2 - l) c) tierOrder

/-- An L3 node selects a queue (R264). -/
def State.selectQueue (s : State) (w : Nat → Bool) (m : Nat) : Option Nat × State :=
  let work := (s.queuesOf m).filter w
  let order := (List.range 8).map fun p => (0, p)
  let s1 := order.foldl (fun (u : State) tp =>
    u.settleRot (rotKey 3 m 0 tp.2) (work.filter fun q => s.queuePrio q == tp.2)) s
  match s1.serveFirst 3 m s.queueWeight (fun _ _ => true) order with
  | (some (q, _), s2) => (some q, s2)
  | (none, s2) => (none, s2)

/-- Charge A bytes to a child's deficit in the rotation that selected it. -/
def State.chargeDeficit (s : State) (l m tier prio c a : Nat) : State :=
  s.setDeficit (rotKey l m tier prio) c (s.deficitOf (rotKey l m tier prio) c - a)

/-- Charge A bytes to a node's buckets: P, and C where it was selected in the committed tier (R265). -/
def State.chargeNode (s : State) (l m a : Nat) (committed : Bool) : State :=
  let b := s.bucketOf l m
  let n : Int := (a : Int) * 1000
  { s with que := { s.que with
    bucket := mset s.que.bucket (nodeKey l m) { b with p := b.p - n, c := if committed then b.c - n else b.c } } }

/-- Bytes in a slice's egress ESP buffer. -/
def State.espOut (s : State) (sl : Nat) : Nat := (mgetD s.que.espOut sl []).foldl (fun a x => a + x.2.bytes.length) 0

/-- The QD slice that runs an L0 node (R261). -/
def nodeSlice (n : Nat) : Nat := if lineNode n then n / 16 else (n - 128) / 2

/-- An L0 node is held (R267): its port cannot send and DOWN_ACT is 0 (R72), the egress ESP buffer of its slice is full (R81),
or its QD slice is gated. -/
def State.l0Held (s : State) (n : Nat) : Bool :=
  (lineNode n && s.cannotSend n && !s.pfb F.LNE_PORT_CTRL_DOWN_ACT n) || decide (1048576 ≤ s.espOut (nodeSlice n)) ||
    decide (2 ≤ s.f F.PWR_GRP_STATUS_STATE (nodeSlice n))

/-- A QD slice has made one more of its selections of this pica. -/
def State.pick (s : State) (sl : Nat) : State :=
  { s with que := { s.que with picks := mset s.que.picks sl (mgetD s.que.picks sl 0 + 1) } }

/-- Head frames that can never pass their gate are dropped (R271). -/
def State.dropOversize (s : State) (n0 q : Nat) : Nat → State
  | 0 => s
  | k + 1 =>
    match (s.qOf q).frames with
    | p :: rest =>
      if s.gateOversize n0 q p then
        (((((s.setQ q { s.qOf q with frames := rest }).sat F.SHP_GALLEY_STATUS_OVERSIZE 1 n0).setF
          F.SHP_STATUS_GATE_OVERSIZE 1).queueDrop q 0x78 p).settleSpill q).dropOversize n0 q k
      else s
    | [] => s

/-- The selected frame leaves its queue for its port or punt ring: toward FD on the Triplet lanes, or to the punt engine. -/
def State.leave (s : State) (n0 : Nat) (p : Pkt) : State :=
  if lineNode n0 then
    let n := s.que.nextFlight
    { s with
      que := { s.que with flight := mset s.que.flight n (n0, p), nextFlight := n + 1 }
      buf := { s.buf with qf := { s.buf.qf with queue := s.buf.qf.queue ++ [n * 4] } } }
  else
    let r := n0 - 128
    { s with que := { s.que with toPunt := mset s.que.toPunt r (mgetD s.que.toPunt r [] ++ [p]) } }

/-- Dequeue a queue's head: none where an uncorrectable link entry takes the frame (R216). -/
def State.dequeue (s : State) (q : Nat) : Option Pkt × State :=
  match (s.qOf q).frames with
  | [] => (none, s)
  | p :: rest =>
    let s1 := (s.setQ q { s.qOf q with frames := rest }).settleSpill q
    if s1.pktBad p then (none, s1.queueDrop q 0x63 p) else (some p, s1)

/-- A selected path: the nodes of L1 to L3 with the tiers that selected them, and the queue. -/
structure Sel where
  x1 : Nat × Nat
  x2 : Nat × Nat
  x3 : Nat × Nat
  q : Nat
  deriving DecidableEq, Repr

/-- The path that the hierarchy of an L0 node selects. -/
def State.selectPath (s : State) (w : Nat → Bool) (e : Elig) (n0 : Nat) : Option Sel × State :=
  match s.selectNode w e 0 n0 with
  | (none, s1) => (none, s1)
  | (some x1, s1) =>
    match s1.selectNode w e 1 x1.1 with
    | (none, s2) => (none, s2)
    | (some x2, s2) =>
      match s2.selectNode w e 2 x2.1 with
      | (none, s3) => (none, s3)
      | (some x3, s3) =>
        match s3.selectQueue w x3.1 with
        | (none, s4) => (none, s4)
        | (some q, s4) => (some ⟨x1, x2, x3, q⟩, s4)

/-- The deficits that A bytes come off: at every level, in the rotation of the tier that selected (R265). -/
def State.chargePath (s : State) (n0 : Nat) (x : Sel) (a : Nat) : State :=
  (((s.chargeDeficit 0 n0 x.x1.2 (s.nodePrio 1 x.x1.1) x.x1.1 a).chargeDeficit 1 x.x1.1 x.x2.2 (s.nodePrio 2 x.x2.1) x.x2.1
    a).chargeDeficit 2 x.x2.1 x.x3.2 (s.nodePrio 3 x.x3.1) x.x3.1 a).chargeDeficit 3 x.x3.1 0 (s.queuePrio x.q) x.q a

/-- The charges of a frame of accounted length A on its path (R265). -/
def State.charge (s : State) (n0 : Nat) (x : Sel) (a : Nat) : State :=
  let c0 := decide (0 < (s.bucketOf 0 n0).c)
  ((((s.chargePath n0 x a).chargeNode 0 n0 a c0).chargeNode 1 x.x1.1 a (x.x1.2 == 0)).chargeNode 2 x.x2.1 a
    (x.x2.2 == 0)).chargeNode 3 x.x3.1 a (x.x3.2 == 0)

/-- Meaning of DEQUEUE_SELECT: an L0 node whose own peak bucket allows it takes its turn, among the 40 selections that its
slice makes in a pica (R261, R263 to R267, log entry 32); the link entry that reads uncorrectably, if one does, is named
(R216). -/
def execDequeueSelect (node : BitVec 8) (badLink : Option (BitVec 24)) (s : State) : Ans :=
  s.onCore fun s =>
    let n0 := node.toNat
    let s := match badLink with | some h => s.linkError h.toNat | none => s
    if !(lineNode n0 || puntNode n0) ∨ !s.nodeValid 0 n0 ∨ s.l0Held n0 ∨ !(s.bucketOf 0 n0).peak ∨
        64 ≤ s.buf.qf.hist.length ∨ 40 ≤ mgetD s.que.picks (nodeSlice n0) 0 then s
    else
      let s0 := (s.que.q.map (·.1)).foldl (fun (u : State) q =>
        if !u.isVoq q && u.queueL0 q == some n0 then u.dropOversize n0 q (u.qOf q).frames.length else u) s
      match s0.selectPath (s0.queueWork n0) s0.shaped n0 with
      | (none, s1) => s1
      | (some x, s1) =>
        match (s1.pick (nodeSlice n0)).dequeue x.q with
        | (none, s2) => s2
        | (some p, s2) => (s2.charge n0 x (s1.accounted n0 p)).leave n0 p

/-! ### Shapers (R266, R267) -/

/-- Picas between refills of a level (Table 11-6). -/
def refillPeriod (l : Nat) : Nat := match l with | 2 => 4 | 3 => 16 | _ => 1

/-- One refill: written rates and bursts come into force with it. -/
def Bucket.refill (b : Bucket) (w : Nat × Nat) (t : Nat) : Bucket :=
  { c := min ((bits w.1 47 32 * 64000 : Nat) : Int) (b.c + (bits w.2 63 40 * t : Nat))
    p := min ((bits w.1 31 16 * 64000 : Nat) : Int) (b.p + (bits w.2 39 16 * t : Nat)), w0 := w.1, w1 := w.2 }

/-- Meaning of SHAPER_REFILL: at a pica that is a multiple of its level's period, a node's buckets refill, once (R25, R266). -/
def execShaperRefill (level : Fin 4) (node : BitVec 18) (s : State) : Ans :=
  s.onCore fun s =>
    let l := level.val
    let m := node.toNat
    if s.nodeValid l m ∧ s.pica.num % refillPeriod l = 0 ∧ !s.que.refilled.contains (nodeKey l m) then
      { s with que := { s.que with
        bucket := mset s.que.bucket (nodeKey l m) ((s.bucketOf l m).refill (s.nodeOf l m) (refillPeriod l))
        refilled := s.que.refilled ++ [nodeKey l m] } }
    else s

/-! ### Flush (R251) -/

/-- The effect of QUE_FLUSH.GO: every frame the queue holds is to be dropped and SPILLING clears; ignored while a flush is
in progress. The bundles return to the free list. -/
def State.queFlush (s : State) (q : Nat) : State :=
  if s.fb F.QUE_STATUS_FLUSH_BUSY then s
  else
    let x := s.qOf q
    let l := x.frames ++ x.restored ++ x.hbm.flatMap (·.frames) ++ (s.fullOf q).flatMap (·.frames) ++ x.opened
    let hs := (x.tails ++ x.restoring.toList ++ x.hbm).map (·.handle)
    let s1 := s.setQ q {}
    let s2 := { s1 with que := { s1.que with flush := some (q, l) }
                        buf := { s1.buf with full := s1.buf.full.filter fun b => b.1 != q } }
    (hs.foldl State.freeBundle s2).setF F.QUE_STATUS_FLUSH_BUSY 1

/-- Meaning of QUEUE_FLUSH_DONE: the frames the queue held have been dropped under QUE_FLUSH. -/
def execQueueFlushDone (s : State) : Ans :=
  s.onCore fun s =>
    match s.que.flush with
    | none => s
    | some (q, l) =>
      let s1 := { s with que := { s.que with flush := none } }
      (l.foldl (fun (u : State) p => u.queueDrop q 0x71 p) s1).setF F.QUE_STATUS_FLUSH_BUSY 0

end Sys2Proof.Machine
end

