-- ==== Sys2Proof/Machine/Fab.lean ====
section
/-! DEFINITION. The fabric interface (chapter 12): lanes, cells, credit, the dispatcher, reassembly and elimination. -/
namespace Sys2Proof.Machine

/-! ### Lanes and link groups (R275 to R279) -/

/-- A fabric lane is retired on this side. -/
def State.fabRetired (s : State) (l : Nat) : Bool := s.ret.fab.contains l

/-- A fabric lane is live: locked and not retired on either side. In standalone mode no lane is (R275). -/
def State.fabLive (s : State) (l : Nat) : Bool :=
  !s.standalone && (mgetD s.fab.align l {}).locked && !s.fabRetired l && !s.fab.far.contains l

/-- Show a lane in FAB_LANE_LIVE and FAB_GROUP_STATUS. -/
def State.fabShow (s : State) (l : Nat) : State :=
  let b := s.fabLive l
  let s1 := s.setF F.FAB_LANE_LIVE_LIVE (putBit (s.f F.FAB_LANE_LIVE_LIVE (l / 32)) (l % 32) b) (l / 32)
  let s2 := s1.setF F.FAB_GROUP_STATUS_LIVE (putBit (s1.f F.FAB_GROUP_STATUS_LIVE (l / 4)) (l % 4) b) (l / 4)
  s2.setF F.FAB_GROUP_STATUS_FAR_RETIRED
    (putBit (s2.f F.FAB_GROUP_STATUS_FAR_RETIRED (l / 4)) (l % 4) (s2.fab.far.contains l)) (l / 4)

/-- Retire a fabric lane (R279, R300). -/
def State.fabRetire (s : State) (l : Nat) : State :=
  if s.fabRetired l then s
  else
    let loc := location 3 1 (l / 4 / 5) (0x20 + l / 4 % 5) (l % 4) naMacro naCell
    let s1 := { s with ret := { s.ret with fab := s.ret.fab ++ [l] } }.fabShow l
    ((s1.wr .FAB_ERR_LOG 0 0 0 loc).setF F.FAB_STATUS_LANE_RETIRED 1).raiseD 483 loc

/-- Live lanes of a link group. -/
def State.groupLanes (s : State) (g : Nat) : Nat := ((List.range 4).filter fun i => s.fabLive (4 * g + i)).length

/-- Slots of a link group in this pica (R278). -/
def State.groupSlots (s : State) (g : Nat) : Nat :=
  let k := s.groupLanes g
  if s.pica.num % 2 = 0 then 3 * k / 2 else (3 * k + 1) / 2

/-- CRC-16 of cells and lane words: polynomial 0x1021, initial value 0xFFFF. -/
def crc16 (l : List Byte) : Nat := crcBytes 16 0x1021 0xFFFF l

/-- Bits [6207:6144] of a lane frame (Table 12-1). -/
def laneHead (lane cnt : Nat) (retired : Bool) : W64 :=
  let h := beBytes 6 (lane * 2 ^ 40 + cnt % 65536 * 2 ^ 24 + b2n retired * 2 ^ 23)
  BitVec.ofNat 64 (beNat h * 65536 + crc16 h)

/-- The first n bits of PRBS31 (x^31 + x^28 + 1) from a state of 31 bits, as a number. -/
def prbs31 : Nat → Nat → Nat → Nat
  | 0, _, acc => acc
  | n + 1, r, acc =>
    let b := (r / 2 ^ 30 + r / 2 ^ 27) % 2
    prbs31 n ((2 * r + b) % 2 ^ 31) (2 * acc + b)

/-- The 6,240 data bits of a lane frame (Table 12-1): ALIGN as it is, the lane word and the cells scrambled. -/
def laneData (head : W64) (cells : List (List Byte)) : Nat :=
  0x5A3C96E1 * 2 ^ 6208 +
    (beNat (beBytes 8 head.toNat ++ cells.flatten)) % 2 ^ 6208 ^^^ prbs31 6208 Config.laneScrambler.toNat 0

/-- Every second element of a list, from the first. -/
def evens {α : Type} : List α → List α
  | [] => []
  | [x] => [x]
  | x :: _ :: rest => x :: evens rest

/-- The 28 parity symbols of 10 bits of a codeword RS(340,312); their values are uninterpreted (R276, log entry 35). -/
def laneParity (l : List Nat) : List Nat := (List.range 28).map fun i => (Config.laneParity l).getD i 0 % 1024

/-- The 680 symbols of a lane frame as sent: two codewords, symbol by symbol in turn (R276). -/
def laneFrame (head : W64) (cells : List (List Byte)) : List Nat :=
  let sym := (List.range 624).map fun i => laneData head cells / 2 ^ (10 * (623 - i)) % 1024
  let p0 := laneParity (evens sym)
  let p1 := laneParity (evens (sym.drop 1))
  sym ++ (p0.zip p1).flatMap fun x => [x.1, x.2]

/-- The CRC of a lane word passes. -/
def laneHeadOk (w : W64) : Bool := crc16 (beBytes 6 (w.toNat / 65536)) == w.toNat % 65536

/-! ### Cells (R280 to R282) -/

/-- A cell (Table 12-2): header with its CRC, payload, and zeros up to 240 bytes. -/
def mkCell (typ tc epoch dest src fh seq : Nat) (payload : List Byte) : List Byte :=
  let w0 := typ * 2 ^ 62 + tc * 2 ^ 59 + epoch * 2 ^ 55 + dest * 2 ^ 45 + src * 2 ^ 35 + payload.length * 2 ^ 27 + fh * 2 ^ 19
  let h := beBytes 8 w0 ++ beBytes 6 (seq * 2 ^ 24)
  h ++ beBytes 2 (crc16 h) ++ payload ++ List.replicate (240 - payload.length) 0

/-- A frame record (Table 12-3): header with the VOQ's DEST_QID and DEST_MC, then the stored bytes. -/
def recordOf (desc : Nat) (p : Pkt) : List Byte :=
  let adj8 := Int.toNat (p.lenAdj % 256)
  let r0 := p.bytes.length * 2 ^ 48 + b2n (bit desc 50) * 2 ^ 47 + b2n p.dbl * 2 ^ 46 + b2n p.espEn * 2 ^ 45
    + b2n p.cbEn * 2 ^ 44 + p.tsMode * 2 ^ 42 + p.adj * 2 ^ 20 + bits desc 19 0
  let r1 := p.egrArg * 2 ^ 32 + adj8 * 2 ^ 24 + p.fseq
  let r2 := p.sa * 2 ^ 46 + p.stream * 2 ^ 32 + p.tsTag * 2 ^ 16
  beBytes 8 r0 ++ beBytes 8 r1 ++ beBytes 8 r2 ++ p.bytes

/-- The frame of a record, complete at pica `now`: its descriptor, and MC. A frame of the fabric has no ingress port here. -/
def ofRecord (now : Nat) (r : List Byte) : Pkt × Bool :=
  let r0 := beNat (slice r 0 8)
  let r1 := beNat (slice r 8 8)
  let r2 := beNat (slice r 16 8)
  ({ kind := .fabric, bytes := r.drop 24, port := 128, entered := now, qid := bits r0 19 0, group := bits r0 17 0
     dbl := bit r0 46, espEn := bit r0 45, cbEn := bit r0 44, tsMode := bits r0 43 42, adj := bits r0 37 20
     egrArg := bits r1 63 32, lenAdj := signed8 (bits r1 31 24), fseq := bits r1 23 0
     sa := bits r2 63 46, stream := bits r2 45 32, tsTag := bits r2 31 16 }, bit r0 47)

/-- The device's own endpoint. -/
def State.myEp (s : State) : Nat := s.f F.FAB_CTRL_MY_EP
/-- The low 4 bits of RESET_EPOCH. -/
def State.epoch4 (s : State) : Nat := s.f F.TIM_STATUS_RESET_EPOCH % 16

/-- An idle cell (R280). -/
def State.idleCell (s : State) : List Byte :=
  mkCell 0 Config.cellTc.toNat s.epoch4 Config.idleDest.toNat s.myEp 255 0 []

/-! ### Credit at the source (R285, R286) -/

/-- CREDIT_BYTES. -/
def State.creditBytes (s : State) : Nat := 1024 * 2 ^ s.f F.FAB_CREDIT_CFG_CREDIT_SIZE

/-- A VOQ's credit state. -/
def State.voqOf (s : State) (q : Nat) : Voq := mgetD s.fab.voq q {}
/-- Store a VOQ's credit state. -/
def State.setVoq (s : State) (q : Nat) (v : Voq) : State := { s with fab := { s.fab with voq := mset s.fab.voq q v } }

/-- The endpoint a VOQ leads to; in standalone mode the device itself. -/
def State.voqEp (s : State) (q : Nat) : Nat := if s.standalone then s.myEp else bits (s.qDesc q) 41 32
/-- TC of a VOQ. -/
def State.voqTc (s : State) (q : Nat) : Nat := bits (s.qDesc q) 55 53

/-- Queue a credit message toward an endpoint. -/
def State.sendCredit (s : State) (ep : Nat) (c : Credit) : State :=
  { s with fab := { s.fab with ctl := mset s.fab.ctl ep (mgetD s.fab.ctl ep [] ++ [c]) } }

/-- A VOQ sends ON (1) or OFF (2). -/
def State.voqSend (s : State) (q kind : Nat) : State :=
  s.sendCredit (s.voqEp q) ⟨kind, s.voqTc q, 0, bits (s.qDesc q) 19 0, q, s.pica.num⟩

/-- A VOQ holds a frame: it asks for credit where its balance is used up and it is OFF. -/
def State.voqAsk (s : State) (q : Nat) : State :=
  let v := s.voqOf q
  if decide (v.bal ≤ 0) && !v.on then (s.setVoq q { v with on := true, held := true, lastOn := s.pica.num }).voqSend q 1
  else if v.held then s else s.setVoq q { v with held := true }

/-- A VOQ has emptied: OFF is sent and its balance is clipped to CREDIT_BYTES. A VOQ with DEST_MC keeps credit like any
other; its messages name its group in the place of the egress queue (log entry 33). -/
def State.voqEmpty (s : State) (q : Nat) : State :=
  let v := s.voqOf q
  (s.setVoq q { v with on := false, held := false, bal := min v.bal (s.creditBytes : Int), off := some s.pica.num }).voqSend q 2

/-- Look at a VOQ: frames that have come ask for credit, frames that have gone give it up. -/
def State.voqLook (s : State) (q : Nat) : State :=
  if !s.qValid q then s
  else if 0 < s.frameCount q then s.voqAsk q
  else if (s.voqOf q).held then s.voqEmpty q
  else s

/-- A GRANT arrives for a VOQ: credit up to BAL_MAX; none for a VOQ that is OFF (R286, R287), unless it emptied in this pica,
where the grant is added before the balance is clipped (R296). -/
def State.takeGrant (s : State) (q n : Nat) : State :=
  let v := s.voqOf q
  let cap : Int := (s.f F.FAB_CREDIT_CFG_BAL_MAX * s.creditBytes : Nat)
  let bal := max v.bal (min cap (v.bal + (n * s.creditBytes : Nat)))
  if v.on then s.setVoq q { v with bal := bal, lastOn := s.pica.num }
  else if v.off = some s.pica.num then s.setVoq q { v with bal := min bal (s.creditBytes : Int) }
  else s

/-- Meaning of ON_REFRESH: REFRESH_US have passed with a VOQ ON and no grant, and it sends ON again (R286). -/
def execOnRefresh (voq : BitVec 20) (s : State) : Ans :=
  s.onCore fun s =>
    let q := voq.toNat
    let v := s.voqOf q
    if v.on && decide (s.f F.FAB_CREDIT_CFG_REFRESH_US * 1000 ≤ (s.pica.num - v.lastOn) * 16) then
      (s.setVoq q { v with lastOn := s.pica.num }).voqSend q 1
    else s

/-! ### Credit at the destination (R287) -/

/-- Entries of the request table. -/
def State.reqTotal (s : State) : Nat := s.fab.req.foldl (fun a kv => a + kv.2.length) 0

/-- An ON or OFF arrives from an endpoint. -/
def State.takeRequest (s : State) (src : Nat) (c : Credit) : State :=
  let l := mgetD s.fab.req c.dest []
  let here := l.any fun e => e.src == src && e.voq == c.voq
  if c.kind = 1 then
    if here ∨ 262144 ≤ s.reqTotal then s
    else { s with fab := { s.fab with req := mset s.fab.req c.dest (l ++ [⟨src, c.voq, c.tc⟩]) } }
  else { s with fab := { s.fab with req := msetD s.fab.req c.dest [] (l.filter fun e => !(e.src == src && e.voq == c.voq)) } }

/-- A credit message arrives. -/
def State.takeCredit (s : State) (src : Nat) (c : Credit) : State :=
  match c.kind with
  | 1 | 2 => s.takeRequest src c
  | 3 => s.takeGrant c.voq c.count
  | _ => s

/-- A credit message as its word (Table 12-4). -/
def Credit.word (c : Credit) : Nat := c.kind * 2 ^ 62 + c.tc * 2 ^ 59 + c.count * 2 ^ 40 + c.dest * 2 ^ 20 + c.voq

/-- The credit message of a word. -/
def Credit.ofWord (w : Nat) : Credit := ⟨bits w 63 62, bits w 61 59, bits w 47 40, bits w 39 20, bits w 19 0, 0⟩

/-- The rate of a port's mode in units of 500 kb/s (Table 3-1, R287). -/
def modeRate (m : Nat) : Nat :=
  match m with
  | 1 => 400000 | 2 => 800000 | 3 => 1600000 | 4 => 3200000
  | 8 => 200000 | 9 => 400000 | 10 => 800000 | 11 => 1600000
  | _ => 0

/-- The generator rate of a line port in hundredths of a millibyte a pica. -/
def State.genRate (s : State) (n : Nat) : Nat :=
  let pir := bits (s.nodeOf 0 n).2 39 16
  let r := modeRate (s.portMode n)
  (if pir = 0 then r else Nat.min pir r) * s.f F.FAB_CREDIT_CFG_GEN_PCT

/-- A queue qualifies for a grant: it has ON entries and its TOTAL is below HOLD. -/
def State.wantsGrant (s : State) (q : Nat) : Bool :=
  !(mgetD s.fab.req q []).isEmpty && decide (s.total q < s.f F.FAB_CREDIT_CFG_HOLD * 4096)

/-- Select an egress queue for a grant by R263 and R264 without shapers, with the generators' own rotations; a grant is
charged CREDIT_BYTES to them (log entry 34). -/
def State.grantQueue (s : State) (n : Nat) : Option Nat × State :=
  let t := { s with que := { s.que with rot := s.fab.rot, deficit := s.fab.deficit } }
  let r := t.selectPath s.wantsGrant (fun _ _ _ => true) n
  let u := match r.1 with | some x => r.2.chargePath n x s.creditBytes | none => r.2
  (r.1.map (·.q), { s with fab := { s.fab with rot := u.que.rot, deficit := u.que.deficit } })

/-- Send one credit to the ON entry at the head of a queue's rotation; grants of one pica to one VOQ merge. -/
def State.grantTo (s : State) (q : Nat) : State :=
  match mgetD s.fab.req q [] with
  | [] => s
  | e :: rest =>
    let s1 := { s with fab := { s.fab with req := mset s.fab.req q (rest ++ [e]) } }
    let l := mgetD s1.fab.ctl e.src []
    let same := fun (c : Credit) => c.kind == 3 && c.voq == e.voq && c.born == s.pica.num && decide (c.count < 255)
    if l.any same then
      { s1 with fab := { s1.fab with ctl := mset s1.fab.ctl e.src (l.map fun c => if same c then { c with count := c.count + 1 } else c) } }
    else s1.sendCredit e.src ⟨3, e.tc, 1, q, e.voq, s.pica.num⟩

/-- A line port's generator runs: its port is enabled and its node is valid and not held. -/
def State.genRuns (s : State) (n : Nat) : Bool := lineNode n && s.portEn n && s.nodeValid 0 n && !s.l0Held n

/-- One pica of the credit generators: each that runs and has a queue that qualifies gains its rate; the others bank
nothing. -/
def State.genPica (s : State) : State :=
  let ns := s.fab.req.filterMap fun kv => s.queueL0 kv.1
  let run := fun n => s.genRuns n && (s.grantQueue n).1.isSome
  let gen := ns.foldl (fun (m : SMap Nat) n =>
    if run n && (mget m n).isNone then mset m n (mgetD s.fab.gen n 0 + s.genRate n) else m) []
  { s with fab := { s.fab with gen := gen } }

/-- Meaning of CREDIT_GENERATE: a line port's generator that has accumulated CREDIT_BYTES sends one grant (R287). -/
def execCreditGenerate (port : BitVec 7) (s : State) : Ans :=
  s.onCore fun s =>
    let n := port.toNat
    let acc := mgetD s.fab.gen n 0
    let cost := s.creditBytes * 100000
    if acc < cost ∨ !s.genRuns n then s
    else
      match s.grantQueue n with
      | (some q, s1) =>
        let s2 := s1.grantTo q
        { s2 with fab := { s2.fab with gen := mset s2.fab.gen n (acc - cost) } }
      | (none, s1) => { s1 with fab := { s1.fab with gen := merase s1.fab.gen n } }

/-! ### Reassembly (R290 to R293) -/

/-- Cells in the reorder store: held cells, and those of complete frames that wait for buffers. -/
def State.storeUsed (s : State) : Nat :=
  s.fab.ctx.foldl (fun a kv => a + kv.2.held.length) 0 +
    s.fab.done.foldl (fun a f => if f.waits then a + (f.p.bytes.length + 263) / 240 else a) 0

/-- The complete records of a byte stream, an error for a LENGTH that is refused, with what is left and whether to skip. -/
def parseRecords (maxLen : Nat) : Nat → List Byte → List (Except Nat (List Byte)) × List Byte × Bool
  | 0, st => ([], st, false)
  | k + 1, st =>
    if st.length < 24 then ([], st, false)
    else
      let len := beNat (slice st 0 2)
      if len = 0 ∨ maxLen < len then ([.error len], [], true)
      else if st.length < 24 + len then ([], st, false)
      else
        let r := parseRecords maxLen k (st.drop (24 + len))
        (.ok (st.take (24 + len)) :: r.1, r.2)

/-- The next cell in order is appended to the stream (R290); after a bad record, or while skipping, the stream resumes at
FH_OFF (R291). -/
def Reasm.append (r : Reasm) (maxLen : Nat) (c : HeldCell) : Reasm × List (Except Nat (List Byte)) :=
  let resume := fun (_ : Unit) =>
    if c.fh = 255 then (([], [], true) : List (Except Nat (List Byte)) × List Byte × Bool)
    else parseRecords maxLen 32 (c.payload.drop c.fh)
  let out :=
    if r.skip then resume ()
    else
      let o := parseRecords maxLen 32 (r.stream ++ c.payload)
      match o.1 with
      | .error e :: _ => if r.stream.isEmpty then o else (let q := resume (); (.error e :: q.1, q.2))
      | _ => o
  ({ r with stream := out.2.1, skip := out.2.2
            owed := if out.2.2 && c.fh == 255 then r.owed - c.payload.length else 0 }, out.1)

/-- A context's context of the state. -/
def State.setCtx (s : State) (k : Nat) (r : Reasm) : State := { s with fab := { s.fab with ctx := mset s.fab.ctx k r } }

/-- What a cell completed: frames wait to be taken in order, bad records are dropped (R291). -/
def State.tookRecords (s : State) (k : Nat) (l : List (Except Nat (List Byte))) : State :=
  l.foldl (fun (u : State) x => match x with
    | .ok r =>
      let f := ofRecord u.pica.num r
      { u with fab := { u.fab with done := u.fab.done ++ [{ ctx := k, p := f.1, mc := f.2 }] } }
    | .error len => u.drop 0x92 len 128) s

/-- Append held cells while the next one is there. -/
def State.drainCtx (s : State) (k : Nat) (r : Reasm) : Nat → State
  | 0 => s.setCtx k r
  | n + 1 =>
    match mget r.held r.next with
    | none => s.setCtx k { r with gap := if r.held.isEmpty then none else some (r.gap.getD s.pica.num) }
    | some c =>
      let a := r.append (s.f F.BUF_CTRL_MAX_FRAME) c
      (s.tookRecords k a.2).drainCtx k { a.1 with held := merase r.held r.next, next := (r.next + 1) % 2 ^ 24, gap := none } n

/-- A data cell arrives at its context (R290). -/
def State.cellArrive (s : State) (k epoch seq : Nat) (c : HeldCell) : State :=
  let base : Reasm × State := match mget s.fab.ctx k with
    | none => ({ next := seq, epoch := epoch }, s)
    | some r =>
      if r.epoch = epoch then (r, s)
      else
        ({ next := 0, epoch := epoch }, if r.stream.isEmpty then s else s.drop 0x90 r.stream.length 128)
  let r := base.1
  let s1 := base.2
  let d := (seq + 2 ^ 24 - r.next) % 2 ^ 24
  if 512 ≤ d then
    if (r.next + 2 ^ 24 - seq) % 2 ^ 24 ≤ 2 ^ 23 then (s1.setCtx k r).sat F.FAB_RX_DROPS_SEQ_LATE 1
    else (s1.setCtx k r).sat F.FAB_RX_DROPS_SEQ_WINDOW 1
  else if 32768 ≤ s1.storeUsed then (s1.setCtx k r).setF F.FAB_STATUS_STORE_FULL 1
  else s1.drainCtx k { r with held := mset r.held seq c } 512

/-- The bytes that are still to come of the record in progress, or at least those of a dropped one that the context skips; 0
where its LENGTH is not known. -/
def Reasm.rest (r : Reasm) : Nat :=
  if r.stream.isEmpty then r.owed
  else if r.stream.length < 2 then 0
  else 24 + beNat (slice r.stream 0 2) - r.stream.length

/-- The records that span missing cells are dropped (R290), each counted once (R16): the one in progress, and the one whose
end the next cell holds. Where the one in progress, or one dropped before that the context still skips, may have ended among
the missing cells, whether the next cell goes on with another is a free value; its length rules that out where the missing
cells could not hold the rest of it (log entry 100). -/
def State.gapDrop (s : State) (r : Reasm) (missing : Nat) (tail : Bool) : Reasm × State :=
  let drop := fun (u : State) len => (u.drop 0x91 len 128).setF F.FAB_STATUS_TIMEOUT 1
  let left := r.rest
  let open_ := !r.stream.isEmpty || r.skip
  let s1 := if r.stream.isEmpty then s else drop s r.stream.length
  let ask := open_ && tail && decide (left ≤ 240 * missing)
  let another := tail && (!open_ || (ask && Config.gapRecords s.free))
  let s2 := if ask then { s1 with free := s1.free + 1 } else s1
  ({ r with stream := [], skip := true, gap := none, owed := if another then 0 else left - 240 * missing },
    if another then drop s2 0 else s2)

/-- Meaning of REASSEMBLY_TIMEOUT: a gap of TIMEOUT_US ends: the records that span the missing cells are dropped and the
context goes on with the lowest cell it holds (R290). -/
def execReassemblyTimeout (src : BitVec 11) (tc : BitVec 3) (s : State) : Ans :=
  s.onCore fun s =>
    let k := src.toNat * 8 + tc.toNat
    match mget s.fab.ctx k with
    | none => s
    | some r =>
      match r.gap with
      | none => s
      | some g =>
        let dist := fun x => (x + 2 ^ 24 - r.next) % 2 ^ 24
        let lowest := (r.held.map (·.1)).foldl (fun (a : Option Nat) x => match a with
          | none => some x
          | some y => if dist x < dist y then some x else some y) none
        match lowest with
        | none => s
        | some n =>
          if (s.pica.num - g) * 16 < s.f F.FAB_REASM_CFG_TIMEOUT_US * 1000 then s
          else
            let tail := match mget r.held n with | some c => c.fh != 0 | none => false
            let d := s.gapDrop r (dist n) tail
            d.2.drainCtx k { d.1 with next := n } 512

/-- Elimination of a Doublet frame (R293): keep it, or the reason of its drop. -/
def State.eliminate (s : State) (stream f : Nat) : Option Nat × State :=
  let put := fun (u : State) w => { u with fab := { u.fab with elim := mset u.fab.elim stream w } }
  let now := s.pica.num
  let fresh : ElimWin := ⟨true, f, 1, 0, now⟩
  match mget s.fab.elim stream with
  | none => (none, put s fresh)
  | some w =>
    if !w.valid ∨ s.f F.FAB_ELIM_CFG_IDLE_MS * 62500 < now - w.last then
      (none, (put s fresh).sat F.FAB_ELIM_STAT_RESTARTS 1)
    else
      let d := (f + 2 ^ 24 - w.top) % 2 ^ 24
      let b := (w.top + 2 ^ 24 - f) % 2 ^ 24
      let w1 := { w with last := now }
      if d = 0 then (some 0x93, (put s w1).sat F.FAB_ELIM_STAT_DUP 1)
      else if d < 2 ^ 23 then
        (none, put s { w1 with top := f, hist := (if d < 512 then w.hist * 2 ^ d % 2 ^ 512 else 0) ||| 1, rogue := 0 })
      else if b < 512 then
        if bit w.hist b then (some 0x93, (put s w1).sat F.FAB_ELIM_STAT_DUP 1)
        else (none, put s { w1 with hist := w.hist ||| 2 ^ b, rogue := 0 })
      else
        let thr := Nat.max 1 (s.f F.FAB_ELIM_CFG_ROGUE_THR)
        (some 0x94, ((put s { w1 with rogue := w.rogue + 1, valid := decide (w.rogue + 1 ≠ thr) }).sat
          F.FAB_ELIM_STAT_ROGUE 1).setF F.FAB_STATUS_ROGUE 1)

/-- A stored frame from the fabric: eliminated, replicated at the egress stage, or enqueued (R257, R291, R293). -/
def State.placeFab (s : State) (x : FabFrame) : State :=
  let r := if x.p.dbl then s.eliminate x.p.stream x.p.fseq else (none, s)
  match r.1 with
  | some c => r.2.dropPkt c x.p
  | none => if x.mc then r.2.toReplicator x.p true else r.2.admitTo x.p.qid x.p

/-- Store a complete frame with the reserve and place it, or leave it waiting (R210, R291). -/
def State.takeFab (s : State) (i : Nat) (x : FabFrame) : State :=
  match s.storeChain false 0 1 x.p.bytes.length with
  | (.chain h, s1) =>
    ({ s1 with fab := { s1.fab with done := s1.fab.done.eraseIdx i } }).placeFab { x with p := { x.p with chains := h.toList } }
  | (_, s1) => { s1 with fab := { s1.fab with done := s1.fab.done.set i { x with waits := true } } }

/-- The complete frames that pass a test and have no earlier frame of their context before them, each with its place. -/
def readyFabs (want : FabFrame → Bool) (seen : List Nat) (i : Nat) : List FabFrame → List (Nat × FabFrame)
  | [] => []
  | x :: rest =>
    let r := readyFabs want (x.ctx :: seen) (i + 1) rest
    if want x && !seen.contains x.ctx then (i, x) :: r else r

/-- Two complete frames are copies of one Doublet frame that completed together. -/
def twinCopies (x y : FabFrame) : Bool :=
  x.p.dbl && y.p.dbl && x.p.stream == y.p.stream && x.p.fseq == y.p.fseq && x.p.entered == y.p.entered

/-- A copy that completed together with a frame and has the lower SRC_EP is not yet taken. -/
def lowerCopy (l : List FabFrame) (x : FabFrame) : Bool := l.any fun y => twinCopies x y && decide (y.ctx / 8 < x.ctx / 8)

/-- The complete frame to take next: the first that does not follow a copy which completed together with it and has the lower
SRC_EP (R296; one cycle is taken as one pica, log entry 100). -/
def nextFab (want : FabFrame → Bool) (l : List FabFrame) : Option (Nat × FabFrame) :=
  (readyFabs want [] 0 l).find? fun x => !lowerCopy l x.2

/-- Meaning of REASSEMBLY_COMPLETE: the next complete frame, of a context that no earlier frame holds up, is stored. -/
def execReassemblyComplete (s : State) : Ans :=
  s.onCore fun s =>
    match nextFab (fun x => !x.waits) s.fab.done with
    | none => s
    | some (i, x) => s.takeFab i x

/-- Meaning of REASSEMBLY_RETRY: a complete frame that waits for buffers tries again. -/
def execReassemblyRetry (s : State) : Ans :=
  s.onCore fun s =>
    match nextFab (·.waits) s.fab.done with
    | none => s
    | some (i, x) => s.takeFab i x

/-! ### The dispatcher (R283, R284, R288, R289, R294) -/

/-- The egress slice of a VOQ in standalone mode: of the L0 node of its DEST_QID (R294, log entry 33). -/
def State.voqSlice (s : State) (q : Nat) : Nat :=
  match s.queueL0 (bits (s.qDesc q) 19 0) with
  | some n => nodeSlice n
  | none => (Config.strayVoqSlice (BitVec.ofNat 20 q)).toNat

/-- The bundle of a VOQ: endpoint × 8 + class, or in standalone mode (1,024 + egress slice) × 8 + class. -/
def State.bundleOf (s : State) (q : Nat) : Nat :=
  (if s.standalone then 1024 + s.voqSlice q else bits (s.qDesc q) 41 32) * 8 + s.voqTc q

/-- A VOQ may send: its balance is above zero and its head frame is on die (R286). -/
def State.voqEligible (s : State) (q : Nat) : Bool :=
  s.qValid q && !(s.qOf q).frames.isEmpty && decide (0 < (s.voqOf q).bal)

/-- The VOQs that hold frames. -/
def State.voqs (s : State) : List Nat := (s.que.q.map (·.1)).filter s.isVoq

/-- A source flow. -/
def State.flowOf (s : State) (b : Nat) : Flow := mgetD s.fab.flows b {}
/-- Store a source flow. -/
def State.setFlow (s : State) (b : Nat) (x : Flow) : State := { s with fab := { s.fab with flows := mset s.fab.flows b x } }

/-- Keys at or above a pointer first, then the others. -/
def rotated (ptr : Nat) (l : List Nat) : List Nat := l.filter (ptr ≤ ·) ++ l.filter (· < ptr)

/-- A bundle takes its next frame from its VOQs in rotation (R283, R286). -/
def State.pullFrame (s : State) (b : Nat) : Option (Nat × Pkt) × State :=
  let el := s.voqs.filter fun q => s.bundleOf q == b && s.voqEligible q
  match rotated ((s.flowOf b).lastVoq + 1) el with
  | [] => (none, s)
  | q :: _ =>
    match s.dequeue q with
    | (none, s1) => (none, s1)
    | (some p, s1) =>
      let v := s1.voqOf q
      let s2 := s1.setVoq q { v with bal := v.bal - ((p.bytes.length + 24 : Nat) : Int) }
      let s3 := s2.setFlow b { s2.flowOf b with lastVoq := q, frame := some p, rest := recordOf (s2.qDesc q) p }
      (some (q, p), if 0 < s3.frameCount q then s3 else s3.voqEmpty q)

/-- The flow that carries a frame of a bundle: the bundle's own; in standalone mode that of the frame's ingress slice, one of
the 8 flows that an egress slice has for each class (R294): (1,032 + 8 × egress slice + ingress slice) × 8 + class. -/
def State.flowKey (s : State) (b : Nat) (p : Pkt) : Nat :=
  if s.standalone then (1032 + (b / 8 - 1024) * 8 + p.port % 128 / 16) * 8 + b % 8 else b

/-- Fill one cell of a bundle: payload, FH_OFF and the frames whose records end in it. A cell belongs to one flow, so it ends
before a record of another. -/
def State.fillCell (s : State) (b key : Nat) : Nat → List Byte → Option Nat → List Pkt → (List Byte × Nat × List Pkt) × State
  | 0, acc, fh, last => ((acc, fh.getD 255, last), s)
  | k + 1, acc, fh, last =>
    let x := s.flowOf b
    match x.frame with
    | some p =>
      if 240 ≤ acc.length ∨ s.flowKey b p ≠ key then ((acc, fh.getD 255, last), s)
      else
        let fh1 := if x.rest.length = p.bytes.length + 24 then some (fh.getD acc.length) else fh
        let rest := x.rest.drop (240 - acc.length)
        let s1 := s.setFlow b { x with rest := rest, frame := if rest.isEmpty then none else x.frame }
        s1.fillCell b key k (acc ++ x.rest.take (240 - acc.length)) fh1 (if rest.isEmpty then last ++ [p] else last)
    | none =>
      if 240 ≤ acc.length then ((acc, fh.getD 255, last), s)
      else
        match s.pullFrame b with
        | (none, s1) => ((acc, fh.getD 255, last), s1)
        | (some _, s1) => s1.fillCell b key k acc fh last

/-- The next cell of a bundle: its flow, payload, FH_OFF and the frames whose records end in it; none where nothing is to be
sent. -/
def State.buildCell (s : State) (b : Nat) : Option (Nat × List Byte × Nat × List Pkt) × State :=
  let s0 := if (s.flowOf b).frame.isSome then s else (s.pullFrame b).2
  match (s0.flowOf b).frame with
  | none => (none, s0)
  | some p =>
    let key := s0.flowKey b p
    let r := s0.fillCell b key 40 [] none []
    (some (key, r.1), r.2)

/-- The cells, up to n, that a bundle's record in progress and eligible frames fill. -/
def State.cellsOf (b : Nat) : Nat → State → Nat
  | 0, _ => 0
  | n + 1, s => match s.buildCell b with
    | (none, _) => 0
    | (some _, s1) => 1 + State.cellsOf b n s1

/-- The demand of a bundle in cells, up to 12 (R288). -/
def State.demand (s : State) (b : Nat) : Nat := State.cellsOf b 12 s

/-- The active bundles, in rising order, with their demand. -/
def State.bundles (s : State) : SMap Nat :=
  let ks := (s.voqs.filter s.voqEligible).map s.bundleOf ++ (s.fab.flows.filter fun kv => !kv.2.rest.isEmpty).map (·.1)
  ks.foldl (fun m b => if (mget m b).isSome then m else mset m b (s.demand b)) []

/-- A bundle may use a link group; in standalone mode an egress slice stands for one. -/
def State.reaches (s : State) (b g : Nat) : Bool :=
  if s.standalone then b / 8 == 1024 + g else bit (mgetD s.fab.reach (b / 8) (2 ^ 40 - 1)) g

/-- Link groups, or in standalone mode egress slices. -/
def State.groupCount (s : State) : Nat := if s.standalone then 8 else 40

/-- Free slots of a group in this pica. -/
def State.freeSlots (s : State) (g : Nat) : Nat :=
  (if s.standalone then 30 else s.groupSlots g) - mgetD s.fab.slotsUsed g 0

/-- A matching under way: free slots by group, demand by bundle, the matched pairs, and the pointers. -/
structure Match where
  free : SMap Nat
  dem : SMap Nat
  got : List (Nat × Nat) := []
  grant : SMap Nat
  accept : SMap Nat
  deriving DecidableEq, Repr

/-- The grants of one group: lowest class first, in rotation within a class. -/
def State.grantsOf (s : State) (m : Match) (g : Nat) : List (Nat × Nat) :=
  let want := m.dem.filterMap fun kv => if 0 < kv.2 ∧ s.reaches kv.1 g then some kv.1 else none
  let order := (List.range 8).flatMap fun tc => rotated (mgetD m.grant g 0) (want.filter fun b => b % 8 == tc)
  (order.take (mgetD m.free g 0)).map fun b => (b, g)

/-- One iteration of the matching (R288). -/
def State.matchStep (s : State) (first : Bool) (m : Match) : Match :=
  let gr := (List.range s.groupCount).flatMap (s.grantsOf m)
  let r := m.dem.foldl (fun (a : Match) kv =>
    let b := kv.1
    let mine := rotated (mgetD a.accept b 0) ((gr.filter fun x => x.1 == b).map (·.2)) |>.take kv.2
    match mine.getLast? with
    | none => a
    | some g =>
      { free := mine.foldl (fun f g => mset f g (mgetD f g 0 - 1)) a.free
        dem := mset a.dem b (kv.2 - mine.length)
        got := a.got ++ mine.map fun g => (b, g)
        grant := a.grant
        accept := if first then mset a.accept b (g + 1) else a.accept }) m
  let took := fun g => (gr.filter fun x => x.2 == g && r.got.contains x).getLast?
  if first then
    { r with grant := (List.range s.groupCount).foldl (fun f g => match took g with
        | some x => mset f g (x.1 + 1)
        | none => f) r.grant }
  else r

/-- The matching of a pica. -/
def State.matching (s : State) : Match :=
  let m : Match := { free := (List.range s.groupCount).map fun g => (g, s.freeSlots g), dem := s.bundles, grant := s.fab.grant
                     accept := s.fab.flows.map fun kv => (kv.1, kv.2.accept) }
  s.matchStep false (s.matchStep false (s.matchStep true m))

/-- Build the next cell of a bundle with the SEQ of its flow and put it on a group; in standalone mode it crosses at once, and
no cell is lost (R289, R294). -/
def State.sendCell (s : State) (b g : Nat) : State :=
  match s.buildCell b with
  | (none, s1) => s1
  | (some (key, payload, fh, last), s1) =>
    let x := s1.flowOf key
    let s2 := s1.setFlow key { x with seq := (x.seq + 1) % 2 ^ 24 }
    if s2.standalone then
      (last.foldl State.releasePkt s2).cellArrive key s2.epoch4 x.seq { payload := payload, fh := fh }
    else
      let c := mkCell 1 (b % 8) s2.epoch4 (b / 8) s2.myEp fh x.seq payload
      { s2 with fab := { s2.fab with out := mset s2.fab.out g (mgetD s2.fab.out g [] ++ [(⟨c, last⟩ : OutCell)]) } }

/-- Use one slot of a group. -/
def State.useSlot (s : State) (g : Nat) : State :=
  { s with fab := { s.fab with slotsUsed := mset s.fab.slotsUsed g (mgetD s.fab.slotsUsed g 0 + 1) } }

/-- Messages in lists of at most 30. -/
def chunk30 : Nat → List Credit → List (List Credit)
  | 0, _ => []
  | n + 1, l => if l.isEmpty then [] else l.take 30 :: chunk30 n (l.drop 30)

/-- A control cell's messages go to an endpoint: on the first group that reaches it with a free slot, or they wait. Within
the device they pass at once (R285, R288, R294). -/
def State.sendControl (s : State) (ep : Nat) (l : List Credit) : State :=
  let wait := fun (_ : Unit) => { s with fab := { s.fab with ctl := mset s.fab.ctl ep (mgetD s.fab.ctl ep [] ++ l) } }
  if s.f F.FAB_DISP_CFG_CTRL_MAX ≤ s.fab.ctlUsed then wait ()
  else
    let s1 := { s with fab := { s.fab with ctlUsed := s.fab.ctlUsed + 1 } }
    if s.standalone then l.foldl (fun (u : State) c => u.takeCredit s.myEp c) s1
    else
      match (List.range 40).find? fun g => s.reaches (ep * 8) g && decide (0 < s.freeSlots g) with
      | none => wait ()
      | some g =>
        let c := mkCell 2 Config.cellTc.toNat s.epoch4 ep s.myEp 255 0 (l.flatMap fun m => beBytes 8 m.word)
        ({ s1 with fab := { s1.fab with out := mset s1.fab.out g (mgetD s1.fab.out g [] ++ [(⟨c, []⟩ : OutCell)]) } }).useSlot g

/-- The queued credit messages go out in control cells. -/
def State.controls (s : State) : State :=
  let cs := s.fab.ctl.flatMap fun kv => (chunk30 (kv.2.length) kv.2).map fun l => (kv.1, l)
  cs.foldl (fun (u : State) x => u.sendControl x.1 x.2) { s with fab := { s.fab with ctl := [] } }

/-- Meaning of DISPATCH: VOQs ask for credit, control cells go first, and the matching's cells are built (R286, R288). The
matching of a pica is done once: what it left unmatched waits for the next pica (R25, R26). -/
def execDispatch (s : State) : Ans :=
  s.onCore fun s =>
    if s.fab.matched then s
    else
    let qs := s.voqs ++ (s.fab.voq.filterMap fun kv => if kv.2.held ∧ !(s.voqs.contains kv.1) then some kv.1 else none)
    let s1 := (qs.foldl State.voqLook s).controls
    let m := s1.matching
    let s2 := { s1 with fab := { s1.fab with
      grant := m.grant
      matched := true
      flows := m.accept.foldl (fun f kv => mset f kv.1 { mgetD f kv.1 {} with accept := kv.2 }) s1.fab.flows } }
    m.got.foldl (fun (u : State) x => (u.sendCell x.1 x.2).useSlot x.2) s2

/-! ### Lane frames (R276, R277, R279, R281) -/

/-- Meaning of FABRIC_LANE_FRAME_SEND: a lane sends three cells of its group, idle cells where there are none or the lane is
not in use, and releases the frames that have left (R276, R289). -/
def execFabricLaneFrameSend (lane : BitVec 8) (s : State) : Ans :=
  s.onCore fun s =>
    let l := lane.toNat
    if s.standalone ∨ 160 ≤ l then s
    else
      let g := l / 4
      let q := mgetD s.fab.out g []
      let cs := if s.fabLive l then q.take 3 else []
      let cnt := mgetD s.fab.cnt l 0
      let s1 := { s with fab := { s.fab with
        out := msetD s.fab.out g [] (q.drop cs.length), cnt := mset s.fab.cnt l ((cnt + 1) % 65536) } }
      let s2 := (cs.flatMap (·.last)).foldl State.releasePkt s1
      s2.emit (.fabTx l (laneFrame (laneHead l cnt (s.fabRetired l))
        (cs.map (·.bytes) ++ List.replicate (3 - cs.length) s.idleCell)))

/-- One received cell (R281, R285, R290). -/
def State.fabCell (s : State) (c : List Byte) : State :=
  if c.isEmpty then s
  else
    let w0 := beNat (slice c 0 8)
    let w1 := beNat (slice c 8 8)
    let typ := bits w0 63 62
    if crc16 (slice c 0 14) ≠ bits w1 15 0 ∨ typ = 3 then s.sat F.FAB_RX_DROPS_HDR_ERR 1
    else if typ = 0 then s
    else if bits w0 54 45 ≠ s.myEp then s.sat F.FAB_RX_DROPS_MISROUTE 1
    else
      let src := bits w0 44 35
      let payload := slice c 16 (bits w0 34 27)
      if typ = 2 then
        (List.range (payload.length / 8)).foldl (fun (u : State) i =>
          u.takeCredit src (Credit.ofWord (beNat (slice payload (8 * i) 8)))) s
      else s.cellArrive (src * 8 + bits w0 61 59) (bits w0 58 55) (bits w1 63 40) { payload := payload, fh := bits w0 26 19 }

/-- Uncorrectable codewords of a lane (R277, R279). -/
def State.fabUncorr (s : State) (l n : Nat) : State :=
  let e := List.replicate n s.pica.num ++ mgetD s.fab.errs l []
  let s1 := { s with fab := { s.fab with errs := mset s.fab.errs l e } }.sat F.FAB_GROUP_STATUS_UNCORR n (l / 4)
  if reached e s.pica.num (s.f F.FAB_CTRL_RETIRE_THR) then s1.fabRetire l else s1

/-- RETIRED as received on a lane (R277, R279). -/
def State.fabFar (s : State) (l : Nat) (b : Bool) : State :=
  let far := if b then (if s.fab.far.contains l then s.fab.far else s.fab.far ++ [l]) else s.fab.far.filter (· != l)
  { s with fab := { s.fab with far := far } }.fabShow l

/-- Meaning of FABRIC_LANE_FRAME_RECEIVE: a locked lane decodes a lane frame; an uncorrectable codeword, of two that are
interleaved symbol by symbol, loses every cell and the lane word (R277). -/
def execFabricLaneFrameReceive (lane : BitVec 8) (frame : LaneFrame (List Byte)) (s : State) : Ans :=
  s.onCore fun s =>
    let l := lane.toNat
    if s.standalone ∨ 160 ≤ l ∨ !(mgetD s.fab.align l {}).locked then s
    else if frame.bad ≠ 0 then s.fabUncorr l frame.bad.val
    else
      let s1 := if laneHeadOk frame.head then s.fabFar l (bit frame.head.toNat 39) else s
      if s1.fabRetired l || s1.fab.far.contains l then s1 else (frame.cells.take 3).foldl State.fabCell s1

end Sys2Proof.Machine
end

