-- ==== Sys2Proof/Machine/Egress.lean ====
section
/-! DEFINITION. The egress path of a line port (chapters 2, 3, 4 and 13): the egress editor, egress ESP and MACsec, and
transmission. -/
namespace Sys2Proof.Machine

/-! ### The egress editor (R52, R188, R317) -/

/-- The offset behind the MAC addresses and every VLAN tag of EtherType 0x8100 or 0x88A8. -/
def behindTags (b : List Byte) : Nat → Nat → Nat
  | 0, o => o
  | k + 1, o => if be16 b o == 0x8100 || be16 b o == 0x88A8 then behindTags b k (o + 4) else o

/-- Where the R-TAG goes. -/
def rtagOffset (b : List Byte) : Nat := behindTags b (b.length / 4) 12

/-- The R-TAG of a frame sequence number: EtherType 0xF1C1, two reserved bytes and the low 16 bits (R317). -/
def rtag (fseq : Nat) : List Byte := [0xF1, 0xC1, 0, 0] ++ beBytes 2 (fseq % 65536)

/-- The ones'-complement sum of the 16-bit words of bytes, below 65,535. -/
def onesSum (b : List Byte) : Nat :=
  (List.range ((b.length + 1) / 2)).foldl (fun a i => (a + beNat (slice (b ++ [0]) (2 * i) 2)) % 65535) 0

/-- The two halves of a 16-bit number exchanged: the weight of two bytes at an odd offset of a checksum. -/
def swap16 (v : Nat) : Nat := v % 256 * 256 + v / 256

/-- The trailer of ENCAP 0b10: the two bytes that keep the checksum while the stamp changes (R52). -/
def stampTrailer (odd : Bool) (old new trailer : List Byte) : List Byte :=
  let t := if odd then swap16 (beNat trailer) else beNat trailer
  let v := (t + onesSum old + 65535 - onesSum new) % 65535
  beBytes 2 (if odd then swap16 v else v)

/-- The conditions of R52 on a frame whose PTP header begins at `off`; the IPv6 header is the one right before UDP. An `off`
that leaves no room for the UDP checksum (ENCAP 0b01) or for the IPv6 and UDP headers (0b10) fails the check (DESIGN CHOICE,
log entry 104). -/
def stampOk (b : List Byte) (off encap : Nat) : Bool :=
  let typ := beNat (slice b off 1) % 16
  let fin := off - 8 + be16 b (off - 44)
  decide (off + 34 ≤ b.length) && (typ == 0 || typ == 1) && encap != 3 &&
  (encap != 1 || decide (2 ≤ off)) &&
  (encap != 2 || (decide (48 ≤ off) && decide (off + be16 b (off + 2) + 2 ≤ fin) && decide (fin ≤ b.length)))

/-- Write originTimestamp and mend the UDP checksum. Of an originTimestamp that runs past the frame's end the bytes inside are
written (DESIGN CHOICE, log entry 104). -/
def stampFrame (b : List Byte) (off encap sec ns : Nat) : List Byte :=
  let t := beBytes 6 sec ++ beBytes 4 ns
  let b1 := (splice b (off + 34) t).take b.length
  if encap = 1 then splice b1 (off - 2) [0, 0]
  else if encap = 2 then
    let fin := off - 8 + be16 b (off - 44)
    splice b1 (fin - 2) (stampTrailer (fin % 2 != off % 2) (slice b (off + 34) 10) t (slice b1 (fin - 2) 2))
  else b1

/-- One-step timestamping of an edited frame; a frame that fails the check is sent unchanged and TS_BAD sets. -/
def State.oneStep (s : State) (port off encap : Nat) (b : List Byte) : List Byte × State :=
  if stampOk b off encap then
    let t := s.tb.stamp (signed16 (s.pf F.LNE_TS_ADJ_TX_ADJ port) + Config.egressLatency)
    (stampFrame b off encap t.1 t.2, s)
  else (b, s.setF F.TIM_STATUS_TS_BAD 1)

/-- The editor's work on a frame for a line port: adjacency, R-TAG, padding to 60 bytes, one-step stamp. -/
def State.edit (s : State) (port : Nat) (p : Pkt) : Pkt × State :=
  let off := p.tsTag % 1024
  let b1 := Config.adjacency p.adj p.egrArg p.bytes
  let o1 := off + Config.adjacencyShift p.adj p.egrArg p.bytes off
  let at1 := rtagOffset b1
  let b2 := if p.cbEn then b1.take at1 ++ rtag p.fseq ++ b1.drop at1 else b1
  let o2 := if p.cbEn && decide (at1 ≤ o1) then o1 + 6 else o1
  let b3 := b2 ++ List.replicate (60 - b2.length) 0
  if p.tsMode = 2 then
    let r := s.oneStep port o2 (p.tsTag / 1024 % 4) b3
    ({ p with bytes := r.1 }, r.2)
  else ({ p with bytes := b3 }, s)

/-! ### Egress ESP (R87 to R91, R103) -/

/-- The SA that a frame naming index i uses: switched and spent SAs lead to their successors (R91). Fuel bounds the chain. -/
def State.txTarget (s : State) : Nat → Nat → Nat
  | 0, i => i
  | k + 1, i =>
    match (s.sa i).switched with
    | some n => s.txTarget k n
    | none =>
      if (s.sa i).maxPn < (s.sa i).number then
        match s.successor i with
        | some n => s.txTarget k n
        | none => i
      else i

/-- The IP header of a frame to protect: its offset, length and family, the next header behind the ESP header, and where the
IP packet ends by its own length; what follows is padding of the frame (R79, RFC 4303). -/
def espSpot (b : List Byte) (tunnel : Bool) : Option (Nat × Nat × Bool × Nat × Nat) :=
  let et := etherOff b
  let ip := et + 2
  let inner := fun (o : Nat) => if beNat (slice b o 1) / 16 = 4 then 4 else 41
  if be16 b et == 0x0800 then
    let n := beNat (slice b ip 1) % 16 * 4
    some (ip, n, false, if tunnel then inner (ip + n) else beNat (slice b (ip + 9) 1), ip + be16 b (ip + 2))
  else if be16 b et == 0x86DD then
    some (ip, 40, true, if tunnel then inner (ip + 40) else beNat (slice b (ip + 6) 1), ip + 40 + be16 b (ip + 4))
  else none

/-- A frame under ESP with a number (Table 4-8, R102, log entry 36): header, IV, cipher text with padding and trailer, and
ICV behind the IP header, whose protocol, length and IPv4 checksum follow. -/
def espSeal (e : SaEntry) (seq : Nat) (b : List Byte) : List Byte :=
  match espSpot b e.tunnel with
  | none => Config.espOther e.id32 seq e.key b
  | some (ip, n, v6, nh, fin) =>
    let payload := slice b (ip + n) (fin - (ip + n))
    let padLen := (4 - (payload.length + 2) % 4) % 4
    let pt := payload ++ (List.range padLen).map (fun i => BitVec.ofNat 8 (i + 1)) ++ [BitVec.ofNat 8 padLen, BitVec.ofNat 8 nh]
    let hdr := beBytes 4 e.id32 ++ beBytes 4 (seq % 2 ^ 32)
    let aad := beBytes 4 e.id32 ++ (if e.ext then beBytes 8 seq else beBytes 4 (seq % 2 ^ 32))
    let iv := beBytes 8 seq
    let ct := Std.gcmSeal e.key (beBytes 4 (e.salt % 2 ^ 32) ++ iv) aad pt
    let esp := hdr ++ iv ++ ct
    let h := slice b ip n
    let h1 := if v6 then splice (splice h 4 (beBytes 2 esp.length)) 6 [50]
      else
        let h0 := splice (splice (splice h 2 (beBytes 2 (n + esp.length))) 9 [50]) 10 [0, 0]
        splice h0 10 (beBytes 2 (ipChecksum h0))
    b.take ip ++ h1 ++ esp

/-- A drop by egress encryption: it counts in the record of every SA that the frame names or has used (R104), and at the
egress port for the CRY_TX codes; CRY_PN_EXHAUSTED is none of them and counts at the ingress port (R385). -/
def State.txDrop (s : State) (code port : Nat) (sas : List Nat) (p : Pkt) : State :=
  let s1 := sas.foldl (fun t i => t.post spSa i [0, 0, 1]) s
  if code = 0x1C then s1.drop code p.bytes.length p.port else s1.drop code p.bytes.length port 1

/-- A poisoned SA fetch: every frame that waits for the SA is dropped under HBM_POISON (R235); ESP that passes unprocessed
waits for none (R83). -/
def State.saPoisoned (s : State) (i : Nat) : State :=
  let mine := fun (f : RxFrame) => match espFind f.bytes with
    | some x => !f.espNoSa && beNat (slice f.bytes x.off 4) % 2 ^ 18 == i
    | none => false
  let s1 := s.cry.espIn.foldl (fun (u : State) kv =>
    (kv.2.filter mine).foldl (fun (u : State) f => u.saDrop 0x67 (some i) f) u) s
  let s2 := { s1 with cry := { s1.cry with espIn := mfilter (fun _ (l : List RxFrame) => !l.isEmpty) (mmap (fun _ (l : List RxFrame) => l.filter fun f => !mine f) s1.cry.espIn) } }
  let out := fun (x : Nat × Pkt) => s.txTarget saCount x.2.sa == i
  let s3 := s2.que.espOut.foldl (fun (u : State) (kv : Nat × List (Nat × Pkt)) =>
    (kv.2.filter out).foldl (fun (u : State) x => (u.post spSa i [0, 0, 1]).drop 0x67 x.2.bytes.length x.2.port) u) s2
  { s3 with que := { s3.que with espOut := mfilter (fun _ (l : List (Nat × Pkt)) => !l.isEmpty) (mmap (fun _ (l : List (Nat × Pkt)) => l.filter fun x => !out x) s3.que.espOut) } }

/-- Meaning of SA_CACHE_FILL: an SA fetched from HBM enters the cache (R88), and the ESP frames that waited for it can be
taken in order; a poisoned fetch drops them and caches nothing (R235). `bad` says the read came back uncorrectable. -/
def execSaCacheFill (sa : BitVec 18) (bad : Bool) (s : State) : Ans :=
  s.onCore fun s =>
    let i := sa.toNat
    match mget s.cry.cache i with
    | some _ => s
    | none =>
      let r := (s.readEnd (saRead i)).hbmAsk 3 true [(saLA i, 256)]
      if !r.1 then { s with hbm := { s.hbm with unmet := r.2.hbm.unmet } }
      else if bad || s.poisoned (saLA i) 256 then r.2.saPoisoned i
      else r.2.cacheFill i (mgetD s.cry.sa i {})

/-! ### Egress MACsec (R87, R90, R91, R96, R103) -/

/-- The SecTAG of a frame to protect (log entry 18). -/
def txTag (e : SaEntry) (pn : Nat) (sci enc : Bool) (len : Nat) : List Byte :=
  let tci := b2n sci * 32 + b2n enc * 12 + e.an
  [0x88, 0xE5, BitVec.ofNat 8 tci, BitVec.ofNat 8 (if len < 48 then len else 0)] ++ beBytes 4 (pn % 2 ^ 32) ++
    (if sci then beBytes 8 e.sci else [])

/-- A frame under MACsec: integrity only, or encrypted behind the confidentiality offset. -/
def macsecSeal (e : SaEntry) (pn : Nat) (sci enc : Bool) (co : Nat) (b : List Byte) : List Byte :=
  let body := b.drop 12
  let hdr := b.take 12 ++ txTag e pn sci enc body.length
  let nonce := e.nonce e.sci pn
  if enc then hdr ++ body.take co ++ Std.gcmSeal e.key nonce (hdr ++ body.take co) (body.drop co)
  else hdr ++ body ++ Std.gcmSeal e.key nonce (hdr ++ body) []

/-- An encrypted frame waits to be sent and counts as accepted on the SAs it used, each with its octets; one longer than the
port's effective maximum is dropped, and counts there as dropped (R103, R104). -/
def State.toWire (s : State) (port : Nat) (sas : List (Nat × Nat)) (p : Pkt) (b : List Byte) : State :=
  if s.maxFrame port < b.length + 4 then s.txDrop 0x1D port (sas.map (·.1)) { p with bytes := b }
  else
    let s1 := sas.foldl (fun t x => t.post spSa x.1 [1, x.2, 0]) s
    { s1 with que := { s1.que with toLine := mset s1.que.toLine port (mgetD s1.que.toLine port [] ++ [(p, b)]) } }

/-- MACsec on transmit: a port with PROTECT set protects every frame but those of EtherType 0x888E. -/
def State.macsecTx (s : State) (port : Nat) (sas : List (Nat × Nat)) (p : Pkt) : State :=
  let b := p.bytes
  let used := sas.map (·.1)
  if !s.fb F.CRY_PORT_CFG_MACSEC_EN port || !s.fb F.CRY_PORT_CFG_PROTECT port || be16 b 12 == 0x888E then
    s.toWire port sas p b
  else if !s.fb F.CRY_TX_SA_EN port then s.txDrop 0x1B port used p
  else
    let i := s.f F.CRY_TX_SA_SA port
    if !(s.sa i).valid || (s.sa i).type != 1 then s.txDrop 0x1B port (used ++ [i]) p
    else match State.txNumber saCount s i with
    | (.error code, s1) => s1.txDrop code port (used ++ [i]) p
    | (.ok (j, pn), s1) =>
      let b1 := macsecSeal (s1.sa j) pn (s1.fb F.CRY_PORT_CFG_INCLUDE_SCI port) (s1.fb F.CRY_PORT_CFG_ENCRYPT port)
        (confOffset (s1.f F.CRY_PORT_CFG_CONF_OFFSET port)) b
      s1.toWire port (sas ++ [(j, b.length + 4)]) p b1

/-- ESP on transmit for a frame whose SA is at hand, then MACsec. -/
def State.espTx (s : State) (port : Nat) (p : Pkt) : State :=
  match State.txNumber saCount s p.sa with
  | (.error code, s1) => s1.txDrop code port [p.sa] p
  | (.ok (j, seq), s1) =>
    s1.macsecTx port [(j, p.bytes.length + 4)] { p with bytes := espSeal (s1.sa j) seq p.bytes }

/-- Egress encryption of an edited frame: ESP where the descriptor asks for it, waiting in the slice's egress ESP buffer
while its SA is not cached (R81, R88), then MACsec. -/
def State.encrypt (s : State) (port : Nat) (p : Pkt) : State :=
  if !p.espEn then s.macsecTx port [] p
  else if !s.fb F.CRY_CTRL_ESP_EN || !(s.sa p.sa).valid || (s.sa p.sa).type != 3 then s.txDrop 0x1B port [p.sa] p
  else match mget s.cry.cache (s.txTarget saCount p.sa) with
  | some _ => s.espTx port p
  | none =>
    let sl := port / 16
    (({ s with que := { s.que with espOut := mset s.que.espOut sl (mgetD s.que.espOut sl [] ++ [(port, p)]) } }).sat
      F.CRY_CACHE_MISSES 1).readBegin (saRead (s.txTarget saCount p.sa))

/-- A frame of the egress ESP buffer can go on: its SA is cached, or is no longer one to wait for. -/
def State.espReady (s : State) (x : Nat × Pkt) : Bool :=
  !(s.sa x.2.sa).valid || (mget s.cry.cache (s.txTarget saCount x.2.sa)).isSome

/-- The editor takes the next frame that QD scheduled to a port of the slice: its buffers are released with its last byte
(R214), it is dropped where its port cannot send and DOWN_ACT is 1 (R72), else edited and encrypted. -/
def State.editNext (s : State) (sl : Nat) : State :=
  match s.que.toEdit.find? fun x => x.1 / 16 == sl with
  | none => s
  | some (port, p) =>
    let s0 := { s with que := { s.que with toEdit := s.que.toEdit.erase (port, p) } }
    let bad := s0.pktBad p
    let s1 := s0.releasePkt p
    let q := { p with chains := [] }
    if bad then s1.drop 0x63 p.bytes.length p.port
    else if s1.cannotSend port && s1.pfb F.LNE_PORT_CTRL_DOWN_ACT port then
      (s1.live port ctrTxDown 1).drop 0x08 p.bytes.length port 1
    else
      let r := s1.edit port q
      r.2.encrypt port r.1

/-- Meaning of EGRESS_EDIT: the slice's egress path finishes a frame of its ESP buffer that can go on, or takes the next frame
from QD while that buffer is not full: while it holds less than 1 MiB, so that the last frame taken may run past it (R81;
DESIGN CHOICE, log entry 109). Link crypto takes no frame before ZERO_DONE (R100). -/
def execEgressEdit (slice : Fin 8) (s : State) : Ans :=
  s.onCore fun s =>
    let sl := slice.val
    let l := mgetD s.que.espOut sl []
    if !s.fb F.CRY_STATUS_ZERO_DONE then s
    else match l.find? s.espReady with
    | some x => ({ s with que := { s.que with espOut := msetD s.que.espOut sl [] (l.erase x) } }).encrypt x.1 x.2
    | none => if 1048576 ≤ s.espOut sl then s else s.editNext sl

/-! ### Transmission (R49 to R51, R60, R63, R71, R72, R76) -/

/-- A frame goes out on the line with its FCS and is counted; a two-step stamp is recorded (R49). An OTN port's overhead goes
with it. In near loopback the same signal returns to the receiver; in serial loopback it returns and the line transmitter is
muted, where the frame still counts in TX_FRAMES, since counters work on the looped signal (R76; DESIGN CHOICE, log entry
108). -/
def State.sendLine (s : State) (port : Nat) (p : Pkt) (b : List Byte) : State :=
  let x := s.onLine port (b ++ fcs b)
  let s1 := if s.pf F.LNE_PORT_CTRL_LOOPBACK port = 3 then x.2 else (x.2.sendOtn port).emit (.lineTx port x.1)
  let s2 := (s1.live port ctrTx 1).post spPort (2 * port + 1) [1, b.length + 4]
  let t := s.tb.stamp (signed16 (s.pf F.LNE_TS_ADJ_TX_ADJ port))
  let s3 := if p.tsMode = 1 then s2.recordStamp port ⟨p.tsTag, t.1, t.2⟩ else s2
  if s.loopedIn port then s3.lineReceive port (b ++ fcs b) false ⟨1, false⟩ else s3

/-- Where the port's output returns to its receiver, remote fault sent in place of frames is received as such, and ends when
the port sends anything else (R71, R76). -/
def State.loopFault (s : State) (p : Nat) : State :=
  if s.loopedIn p && s.portEn p && !s.portOtn p then s.setRaw p F.DEFECT_RF (s.inPlace p == some 0) else s

/-- Meaning of LINE_FRAME_TRANSMIT: the port sends its next frame. In far loopback it is dropped under LNE_LOOPBACK; on a
port that cannot send it is dropped or waits, by DOWN_ACT. An Ethernet port that may not send frames sends a fault signal or
idle in their place, whether a frame waits or not, and an OTN port goes on sending OTUCn frames (R71). -/
def execLineFrameTransmit (port : BitVec 7) (s : State) : Ans :=
  s.onCore fun s =>
    let n := port.toNat
    if s.cannotSend n then
      let s1 := match mgetD s.que.toLine n [] with
        | [] => s
        | (p, _) :: rest =>
          if s.pfb F.LNE_PORT_CTRL_DOWN_ACT n then
            ({ s with que := { s.que with toLine := msetD s.que.toLine n [] rest } }.live n ctrTxDown 1).drop 0x08
              p.bytes.length n 1
          else s
      (s1.sendInPlace n).loopFault n
    else
      match mgetD s.que.toLine n [] with
      | [] => (s.sendOtn n).loopFault n
      | (p, b) :: rest =>
        let s1 := { s with que := { s.que with toLine := msetD s.que.toLine n [] rest } }
        if s.pf F.LNE_PORT_CTRL_LOOPBACK n = 2 then s1.drop 0x09 p.bytes.length p.port
        else (s1.sendLine n p b).loopFault n

end Sys2Proof.Machine
end

