-- ==== Sys2Proof/Machine/Hbm.lean ====
section
/-! DEFINITION. The stacked memory controllers (chapter 10): the address map, errors and poison, retirement and migration,
refresh, scrub, power-down and start-up. -/
namespace Sys2Proof.Machine

/-! ### Retirement (R237 to R239) -/

/-- The stack's spare can take a retirement: it holds no data, none is moving to it, and it passed its test. -/
def State.spareFree (s : State) (k : Nat) : Bool :=
  !s.fb F.HBM_STACK_STATUS_SPARE_USED k && !s.fb F.HBM_STACK_STATUS_MIGRATING k && s.pchState k (s.spare k) == 3

/-- A second faulty pseudo-channel of a stack stays in service (R239), which is a permanent fault (R298). -/
def State.noSpare (s : State) : State := (((s.setF F.HBM_STATUS_NO_SPARE 1).raise 457).cond 1 true).hwFault

/-- A retirement starts, or meets a stack without a free spare (R238, R239). -/
def State.pchRetire (s : State) (k p : Nat) : State :=
  if s.spareFree k then
    let s1 := (s.setF F.HBM_STACK_STATUS_MIGRATING 1 k).setF F.HBM_STACK_STATUS_RETIRED_PCH p k
    ((s1.setF F.HBM_STACK_MIG_PTR 0 k).setF F.HBM_STATUS_RETIRED 1).raiseD 455 (pchLocation k p)
  else s.noSpare

/-- The pseudo-channel moves to the spare now. -/
def State.pchMoving (s : State) (k p : Nat) : Bool :=
  s.fb F.HBM_STACK_STATUS_MIGRATING k && s.f F.HBM_STACK_STATUS_RETIRED_PCH k == p

/-- The effect of a write of HBM_RETIRE: the spare and a pseudo-channel already retired are refused (Table 10-7). -/
def State.hbmRetire (s : State) (v : W64) : State :=
  if F.HBM_RETIRE_GO.of v = 0 then s
  else
    let k := F.HBM_RETIRE_STACK.of v
    let p := F.HBM_RETIRE_PCH.of v
    if p = s.spare k ∨ s.pchState k p = 2 ∨ s.pchMoving k p then s.cfgErr F.HBM_STATUS_CFG_ERR 458
    else s.pchRetire k p

/-- A pseudo-channel reached its error threshold: it is faulty (R237). One already migrating is left (Table 10-7). An unused
spare holds nothing to move: it is marked retired, so that the stack has no spare (DESIGN CHOICE, log entry 98). Where the
spare is in use or migrating the pseudo-channel stays in service and NO_SPARE sets (R239); else UE_ACT decides. -/
def State.pchFaulty (s : State) (k p : Nat) : State :=
  if s.pchMoving k p || s.pchState k p == 2 then s
  else if p = s.spare k ∧ s.pchState k p = 3 ∧ !s.fb F.HBM_STACK_STATUS_MIGRATING k then
    if s.fb F.HBM_STACK_CFG_UE_ACT k then ((s.setPch k p 2).setF F.HBM_STATUS_RETIRED 1).raiseD 455 (pchLocation k p) else s
  else if !s.spareFree k then s.noSpare
  else if !s.fb F.HBM_STACK_CFG_UE_ACT k then s
  else s.pchRetire k p

/-- A threshold field: 0 acts as 1. -/
def atLeast1 (n : Nat) : Nat := if n = 0 then 1 else n

/-- Errors of the last 2^20 picas with the one at pica p added. -/
def recentErrs (l : List Nat) (p : Nat) : List Nat := (l ++ [p]).filter fun q => p < q + 2 ^ 20

/-- An uncorrectable burst counts toward its pseudo-channel's retirement. -/
def State.countUe (s : State) (k p : Nat) : State :=
  let l := recentErrs (mgetD s.hbm.ue (k * 32 + p) []) s.pica.num
  if atLeast1 (s.f F.HBM_CTRL_UE_THR) ≤ l.length then
    ({ s with hbm := { s.hbm with ue := msetD s.hbm.ue (k * 32 + p) [] [] } }).pchFaulty k p
  else { s with hbm := { s.hbm with ue := mset s.hbm.ue (k * 32 + p) l } }

/-- A command error counts likewise. -/
def State.countCmd (s : State) (k p : Nat) : State :=
  let l := recentErrs (mgetD s.hbm.cmd (k * 32 + p) []) s.pica.num
  if atLeast1 (s.f F.HBM_CTRL_CMD_THR) ≤ l.length then
    ({ s with hbm := { s.hbm with cmd := msetD s.hbm.cmd (k * 32 + p) [] [] } }).pchFaulty k p
  else { s with hbm := { s.hbm with cmd := mset s.hbm.cmd (k * 32 + p) l } }

/-! ### Reads and errors (R230, R234, R236, R242) -/

/-- Log an error: location, kind and class. -/
def State.hbmLog (s : State) (loc : W64) (kind cls : Nat) : State :=
  ((s.wr .HBM_ERR_LOG 0 0 0 loc).setF F.HBM_ERR_INFO_KIND kind).setF F.HBM_ERR_INFO_CLASS cls

/-- An uncorrectable burst at an offset of pseudo-channel p (R234). -/
def State.burstUe (s : State) (k p off cls : Nat) : State :=
  let loc := burstLocation k p off
  ((((s.sat F.HBM_STACK_CNT_UE 1 k).setF F.HBM_STATUS_UE 1).hbmLog loc 1 cls).raiseD 453 loc).countUe k p

/-- The outcome of reading one burst of a stack. A burst already marked poisoned is not counted again. -/
def State.burstRead (s : State) (la k p off cls : Nat) (res : HbmRes) : State :=
  match res with
  | .ok => s
  | .corrected => s.sat F.HBM_STACK_CNT_CE 1 k
  | .uncorrectable => if s.poisoned la 32 then s else s.burstUe k p off cls

/-- Meaning of HBM_READ_COMPLETE: a read of `bytes` bytes of class `cls` at LA returns. It used a tag per 128 bytes; the
burst at LA is correct, corrected or uncorrectable. What its requester does with it stands in the requester's own command
(R235). -/
def execHbmReadComplete (la : BitVec 36) (bytes : Nat) (cls : Fin 7) (res : HbmRes) (s : State) : Ans :=
  s.onCore fun s =>
    s.onHbm cls.val true [(la.toNat, bytes)] fun s =>
      let x := hbmOf la.toNat
      s.burstRead la.toNat x.1 (s.hbmPch x.1 x.2.1 x.2.2) x.2.2 cls.val res

/-- Meaning of HBM_CMD_PARITY: a stack reports a command or address parity error; the unconfirmed commands are issued again
and requests see only latency (R236). -/
def execHbmCmdParity (stack : Fin 4) (pch : BitVec 5) (cls : Fin 7) (s : State) : Ans :=
  s.onCore fun s =>
    let loc := pchLocation stack.val pch.toNat
    let s1 := ((s.sat F.HBM_STACK_CNT_CMD 1 stack.val).setF F.HBM_STATUS_CMD_ERR 1).hbmLog loc 2 cls.val
    (s1.raiseD 454 loc).countCmd stack.val pch.toNat

/-! ### Migration (R238) -/

/-- The logical pseudo-channel that a physical one serves. -/
def State.lpcOf (s : State) (k p : Nat) : Nat := ((List.range 31).find? fun l => s.hbmMap k l == p).getD 0

/-- Mark a burst poisoned. -/
def State.markPoison (s : State) (la : Nat) : State :=
  if s.hbm.poison.contains (la / 32) then s else { s with hbm := { s.hbm with poison := la / 32 :: s.hbm.poison } }

/-- The copy of a retired pseudo-channel is complete. -/
def State.migrated (s : State) (k p : Nat) : State :=
  let s1 := { s with hbm := { s.hbm with map := mset s.hbm.map (k * 32 + s.lpcOf k p) (s.spare k) } }
  let s2 := ((s1.setPch k p 2).setPch k (s.spare k) 0).setF F.HBM_STACK_STATUS_MIGRATING 0 k
  ((s2.setF F.HBM_STACK_STATUS_SPARE_USED 1 k).setF F.HBM_STATUS_MIGRATE_DONE 1).raise 456

/-- The granules of a 1 KiB block of a logical pseudo-channel. -/
def copySpans (k lpc block : Nat) : List (Nat × Nat) := (List.range 4).map fun i => (hbmLA k lpc (block * 1024 + i * 256), 256)

/-- Meaning of MIGRATION_BLOCK_COPY: one block is copied, by a read and a write of class MAINT; `bad` names its bursts that
are uncorrectable, which are counted and written poisoned, and `fixed` those that were corrected, which are counted (R234,
R238). -/
def execMigrationBlockCopy (stack : Fin 4) (bad : List (BitVec 5)) (s : State) (fixed : List (BitVec 5) := []) : Ans :=
  s.onCore fun s =>
    let k := stack.val
    let p := s.f F.HBM_STACK_STATUS_RETIRED_PCH k
    let ptr := s.f F.HBM_STACK_MIG_PTR k
    let lpc := s.lpcOf k p
    if !s.fb F.HBM_STACK_STATUS_MIGRATING k then s
    else s.onHbm 6 true (copySpans k lpc ptr ++ copySpans k lpc ptr) fun s =>
      let s1 := bad.foldl (fun (u : State) b =>
        let off := ptr * 1024 + b.toNat * 32
        let la := hbmLA k lpc off
        (u.burstRead la k p off 6 .uncorrectable).markPoison la) ((s.pchWake k p).sat F.HBM_STACK_CNT_CE fixed.length k)
      let s2 := s1.setF F.HBM_STACK_MIG_PTR (ptr + 1) k
      if s.hbmBlocks ≤ ptr + 1 then s2.migrated k p else s2

/-! ### Refresh, scrub, power-down (R240 to R242) -/

/-- Meaning of REFRESH: a bank of a stack is refreshed; the stack reports its temperature, and the doubled rate, which holds
above 85 °C (R240, R417): the report of it can say nothing else than its temperature says. It changes no data. -/
def execRefresh (stack : Fin 4) (temp : Byte) (_double : Bool) (s : State) : Ans :=
  .next (if s.core then
      (s.begin.setF F.HBM_STACK_STATUS_TEMP temp.toNat stack.val).setF F.HBM_STACK_STATUS_REFRESH_2X
        (b2n (decide (85 < temp.toNat))) stack.val
    else s.begin)

/-- Meaning of PATROL_SCRUB: while SCRUB_EN is set the next burst is read; an uncorrectable one is marked poisoned. Blocks of
a migrating pseudo-channel that are not copied yet are passed over (Table 10-7). -/
def execPatrolScrub (res : HbmRes) (s : State) : Ans :=
  s.onCore fun s =>
    if !s.fb F.HBM_CTRL_SCRUB_EN then s
    else s.onHbm 6 true [(s.hbm.scrub * 32, 32)] fun s =>
      let la := s.hbm.scrub * 32
      let x := hbmOf la
      let p := s.hbmPch x.1 x.2.1 x.2.2
      let s1 := { s with hbm := { s.hbm with scrub := if s.hbm.scrub + 1 < s.hbmBursts then s.hbm.scrub + 1 else 0 } }
      if s.pchMoving x.1 p then s1
      else
        let s2 := s1.burstRead la x.1 p x.2.2 6 res
        if res == .uncorrectable then s2.markPoison la else s2

/-- Meaning of PCH_IDLE_TIMEOUT: an active pseudo-channel without a request for IDLE_US enters power-down. -/
def execPchIdleTimeout (stack : Fin 4) (pch : BitVec 5) (s : State) : Ans :=
  s.onCore fun s =>
    if s.f F.HBM_CTRL_IDLE_US ≠ 0 ∧ s.fb F.HBM_STATUS_READY ∧ s.pchState stack.val pch.toNat = 0 then
      s.setPch stack.val pch.toNat 1
    else s

/-! ### Start-up (R243 to R245) -/

/-- The spare a boot record's byte requests: pseudo-channel 31 where VALID is clear (Table 14-5). -/
def spareOf (b : Nat) : Nat := if bit b 7 then b % 32 else 31

/-- A stack's density matches the ordering code. -/
def State.densityOk (s : State) (x : HbmStart) : Bool := x.density == (if s.f F.HST_ID_ORDER = 0 then 16 else 8)

/-- Steps 2 to 4 of Table 10-6 for one stack: its spare, and a failed pseudo-channel retired to it without a copy; a failed
spare is only marked. The retirement is recorded and raises its event (R300). -/
def State.trainStack (s : State) (k : Nat) (x : HbmStart) : State :=
  let sp := spareOf (s.boot.running.spares.getD k 0)
  let s1 := (s.setF F.HBM_STACK_CFG_SPARE sp k).setF F.HBM_PCH_STATE_STATE (3 * 4 ^ sp) k
  match x.failed with
  | [] => s1
  | q :: _ =>
    let p := q.toNat
    let s2 := s1.setF F.HBM_STACK_STATUS_RETIRED_PCH p k
    if p = sp then s2.setPch k p 2
    else
      let s3 := { s2 with hbm := { s2.hbm with map := mset s2.hbm.map (k * 32 + s2.lpcOf k p) sp } }
      ((((s3.setPch k p 2).setPch k sp 0).setF F.HBM_STACK_STATUS_SPARE_USED 1 k).setF F.HBM_STATUS_RETIRED 1).raiseD 455
        (pchLocation k p)

/-- Step 5: every burst is written with zero. -/
def State.zeroHbm (s : State) : State :=
  { s with hbm := { s.hbm with mgmt := [], poison := [], trained := true }
           cnt := { s.cnt with recs := [] }
           cry := { s.cry with sa := [] } }

/-- Meaning of HBM_STARTUP_DONE: the first release after a PKG release trains, tests and zeroes the stacks, with what was
found of H0 to H3, and sets READY or stops with a status; a later release sets READY alone (R245). -/
def execHbmStartupDone (h0 h1 h2 h3 : HbmStart) (s : State) : Ans :=
  s.onCore fun s =>
    if s.fb F.HBM_STATUS_READY || s.fb F.HBM_STATUS_CAPACITY_MISMATCH || s.fb F.HBM_STATUS_TRAIN_FAIL then s
    else if s.hbm.trained then s.setF F.HBM_STATUS_READY 1
    else
      let l := [h0, h1, h2, h3]
      if l.any fun x => !s.densityOk x then s.setF F.HBM_STATUS_CAPACITY_MISMATCH 1
      else if l.any fun x => x.badLanes || decide (1 < x.failed.length) then
        (s.setF F.HBM_STATUS_TRAIN_FAIL 1).setF F.HBM_ERR_INFO_KIND 3
      else
        let s1 := l.zipIdx.foldl (fun (u : State) x => u.trainStack x.2 x.1) s
        (s1.zeroHbm.setF F.HBM_STATUS_INIT_DONE 1).setF F.HBM_STATUS_READY 1

end Sys2Proof.Machine
end

