-- ==== Sys2Proof/Machine/Red.lean ====
section
/-! DEFINITION. The Doublet (chapter 13): the twin link, hellos, the mirror stream and its snapshots, roles, the arbiter
pins, and the restart after a fatal fault. -/
namespace Sys2Proof.Machine

/-! ### Twin-link lanes (R308) -/

/-- A twin-link lane is retired on this side. -/
def State.twinRetired (s : State) (l : Nat) : Bool := s.ret.twin.contains l

/-- A twin-link lane is live: locked and not retired on either side. -/
def State.twinLive (s : State) (l : Nat) : Bool :=
  (mgetD s.twin.align l {}).locked && !s.twinRetired l && !s.twin.far.contains l

/-- Show a lane in RED_TWIN_STATUS. -/
def State.twinShow (s : State) (l : Nat) : State :=
  let s1 := s.setF F.RED_TWIN_STATUS_LIVE (putBit (s.f F.RED_TWIN_STATUS_LIVE) l (s.twinLive l))
  s1.setF F.RED_TWIN_STATUS_FAR_RETIRED (putBit (s1.f F.RED_TWIN_STATUS_FAR_RETIRED) l (s1.twin.far.contains l))

/-- Retire a twin-link lane by the rule of R279, which R308 takes over whole: its location code under R300 goes to
FAB_ERR_LOG, and FAB_LANE_RETIRED is raised (log entry 101). -/
def State.twinRetire (s : State) (l : Nat) : State :=
  if s.twinRetired l then s
  else
    let loc := location 3 1 15 0x28 l naMacro naCell
    let s1 := { s with ret := { s.ret with twin := s.ret.twin ++ [l] } }.twinShow l
    ((s1.wr .FAB_ERR_LOG 0 0 0 loc).setF F.FAB_STATUS_LANE_RETIRED 1).raiseD 483 loc

/-- The effect of a write of RED_TWIN_RETIRE. -/
def State.twinRetireWrite (s : State) (v : W64) : State :=
  if F.RED_TWIN_RETIRE_GO.of v = 1 then s.twinRetire (F.RED_TWIN_RETIRE_LANE.of v) else s

/-! ### Roles (R319, R321 to R323) -/

/-- A role change ends: the event, and the pica number. -/
def State.roleEnd (s : State) : State :=
  (({ s with twin := { s.twin with changed := some s.pica.num } }.setF F.RED_STATUS_ROLE_CHANGE 1).wr .RED_ROLE_PICA 0 0 0 (BitVec.ofNat 64 s.pica.num)).raise 104

/-- A demotion ends once the mirror queue has been sent or the link is down: ROLE_DOWN shows in the hellos. -/
def State.demoteEnd (s : State) : State :=
  if s.twin.demoting && (s.twin.queue.isEmpty && s.twin.part.isNone || !s.twinUp) then
    { s with twin := { s.twin with demoting := false, roleDown := true } }.roleEnd
  else s

/-- Demotion (R322): PRINCIPAL and AGE_REMOVE clear, queued removals and a snapshot are abandoned. -/
def State.demote (s : State) : State :=
  let s1 := ((s.setF F.RED_STATUS_PRINCIPAL 0).setF F.XMT_CTRL_AGE_REMOVE 0).setF F.RED_STATUS_SYNCING 0
  ({ s1 with exm := { s1.exm with fifo := mmap (fun _ (l : List XOp) => l.filter fun o => !o.isRemoval) s1.exm.fifo }
             twin := { s1.twin with demoting := true, snap := false, resync := false } }).demoteEnd

/-- Promotion (R322): SYNCED, AGE_REMOVE and PRINCIPAL set; punts, the exporter and the BFD sessions follow PRINCIPAL. -/
def State.promote (s : State) : State :=
  let s1 := ((s.setSynced true).setF F.XMT_CTRL_AGE_REMOVE 1).setF F.RED_STATUS_PRINCIPAL 1
  ({ s1 with red := { s1.red with promoting := false }
             twin := { s1.twin with roleDown := false, demoting := false } }.setF F.RED_STATUS_SYNCING 0).roleEnd

/-- Meaning of ARB_ROLE_CHANGE: ARB_ROLE has been stable at a level for 100 µs; it is read only in Doublet mode (R319). -/
def execArbRoleChange (high : Bool) (s : State) : Ans :=
  s.onMgmt fun s =>
    if !s.doublet || s.fb F.RED_STATUS_ARB_ROLE == high then s
    else
      let s1 := s.setF F.RED_STATUS_ARB_ROLE (b2n high)
      if high then { s1 with red := { s1.red with promoting := !s1.principal } }
      else
        let s2 := { s1 with red := { s1.red with promoting := false } }
        if s2.principal then s2.demote else s2

/-- The peer's last hello says ROLE_DOWN. -/
def State.peerDown (s : State) : Bool := match s.twin.peer with | some h => h.roleDown | none => false

/-- Meaning of PROMOTION: a waiting member has seen ROLE_DOWN, has its twin link down, or has waited 1 ms, as the operand
says (R322). -/
def execPromotion (waited : Bool) (s : State) : Ans :=
  s.onMgmt fun s =>
    if s.red.promoting && (waited || !s.twinUp || s.peerDown) then s.promote else s

/-- Meaning of ARB_HEALTH_TOGGLE: every 1 ms the pin toggles while the CORE group is out of reset, no fatal fault is held
and the resident Doublet service answers its watchdog, as the operand says (R319). -/
def execArbHealthToggle (answers : Bool) (s : State) : Ans :=
  s.onMgmt fun s =>
    if s.core && !s.fatalHeld && answers then
      { s with red := { s.red with health := !s.red.health } }.emit (.pin .arbHealth (!s.red.health))
    else s

/-- Meaning of AUTO_RESTART: 100 ms after a fatal fault mcore0 lets the CORE group go, or keeps it held at the fourth fatal
fault within 600 s, or with AUTO_RESTART clear by now (R302, log entry 11). -/
def execAutoRestart (s : State) : Ans :=
  s.onMgmt fun s =>
    if !s.fatalHeld || s.fb F.RED_FATAL_HELD then s
    else if !s.fb F.RED_CTRL_AUTO_RESTART then s.setF F.RED_FATAL_HELD 1
    else if 4 ≤ (s.red.fatals.filter fun t => decide (s.tb.up < t + 600)).length then s.setF F.RED_FATAL_HELD 1
    else { s with grp := { s.grp with holds := s.grp.holds.filter (· != .fatal) } }

/-! ### Hellos (R309, R310, R321) -/

/-- The own twin-link protocol version, of the running image. -/
def State.twinVer (s : State) : Nat := s.boot.imageVer
/-- MEMBER. -/
def State.member (s : State) : Nat := s.f F.RED_CTRL_MEMBER

/-- The hello this member sends. -/
def State.myHello (s : State) : Hello :=
  { ver := s.twinVer, member := s.member, principal := s.principal, synced := s.fb F.RED_STATUS_SYNCED
    roleDown := s.twin.roleDown, snapReq := !s.principal && (s.twin.ask || !s.fb F.RED_STATUS_SYNCED), resync := s.twin.resync
    ack := (s.twin.rxNext + 2 ^ 24 - 1) % 2 ^ 24, pica := s.pica.num }

/-- Meaning of HELLO_SEND: every 16 picas a hello is due on each live lane; it goes with the lane's next lane frame. -/
def execHelloSend (s : State) : Ans :=
  s.onCore fun s =>
    if s.doublet then { s with twin := { s.twin with due := [0, 1].filter s.twinLive } } else s

/-- A snapshot starts (R312): its begin record is queued and the walks begin. -/
def State.snapStart (s : State) : State :=
  let s1 := { s with twin := { s.twin with snap := true, nearPos := 0, farPos := 0, tailPos := 0 } }
  ((s1.setF F.RED_STATUS_SYNCING 1).setF F.RED_SYNC_PROGRESS 0).mirrorRec .snapBegin

/-- An end record is on its way and not acknowledged yet. -/
def State.endPending (s : State) : Bool :=
  s.twin.queue.contains .snapEnd || s.twin.part.any (·.1 == .snapEnd) || s.twin.unacked.any fun c => c.2.ends.contains .snapEnd

/-- Cells up to and including `ack` are acknowledged; an advance restarts the resend time. -/
def State.takeTwinAck (s : State) (ack : Nat) : State :=
  match s.twin.unacked.findIdx? fun c => c.1 == ack with
  | none => s
  | some i =>
    let gone := (s.twin.unacked.take (i + 1)).map (·.1)
    { s with twin := { s.twin with
        unacked := s.twin.unacked.drop (i + 1)
        toSend := s.twin.toSend.filter fun c => !gone.contains c.1
        acked := s.pica.num } }

/-- Both members claim principal: MEMBER 1 acts as second member (R321). -/
def State.dual (s : State) : State :=
  let s1 := if s.fb F.RED_STATUS_DUAL_PRINCIPAL then s else (s.setF F.RED_STATUS_DUAL_PRINCIPAL 1).raise 102
  if s1.member = 1 then s1.demote else s1

/-- ARB_ROLE is low on both members, seen by a member without it whose peer is not principal outside a role change, which
takes at most 1,000 picas (R321, R322). -/
def State.noRole (s : State) (h : Hello) : State :=
  let changing := s.twin.demoting || (match s.twin.changed with | some p => decide (s.pica.num < p + 1000) | none => false)
  if s.fb F.RED_STATUS_ARB_ROLE || h.principal || changing || s.fb F.RED_STATUS_NO_PRINCIPAL then s
  else (s.setF F.RED_STATUS_NO_PRINCIPAL 1).raise 103

/-- A member with ARB_ROLE high that stood back while its peer claimed principal takes up the role again once the peer does
not (R321, log entry 68). -/
def State.claimRole (s : State) (h : Hello) : State :=
  if s.fb F.RED_STATUS_ARB_ROLE && !s.principal && !h.principal && !s.twin.demoting then
    { s with red := { s.red with promoting := true } }
  else s

/-- An accepted hello (R310): the link rises with the first, for which a second member asks for a snapshot (R312), and what it
says takes effect. -/
def State.acceptHello (s : State) (h : Hello) : State :=
  let s1 :=
    if s.twinUp then s
    else
      let u := ((s.setF F.RED_STATUS_TWIN_UP 1).raise 98).cond 6 false
      { u with twin := { u.twin with txSeq := 0, rxNext := 0, part := none, unacked := [], toSend := [], acked := s.pica.num, ask := !s.principal } }
  let rose := !s.twinUp
  let s2 := { s1 with twin := { s1.twin with peer := some h, lastHello := s.pica.num } }.setF F.RED_STATUS_PEER_VER h.ver
  let s3 := if rose then s2 else s2.takeTwinAck h.ack
  let s4 := if s3.principal && h.principal then s3.dual else (s3.noRole h).claimRole h
  let s5 := if !s4.principal && h.resync then s4.setSynced false else s4
  if s5.principal && h.snapReq && !s5.twin.snap && !s5.endPending then s5.snapStart else s5

/-- A hello is accepted when the versions differ by at most 1 and the members are different (R307, R310). -/
def State.helloOk (s : State) (h : Hello) : Bool :=
  decide (h.ver ≤ s.twinVer + 1) && decide (s.twinVer ≤ h.ver + 1) && h.member != s.member

/-! ### The mirror stream (R309, R311, R312) -/

/-- The second member applies one mirror record. -/
def State.applyRec (s : State) (r : MirRec) : State :=
  match r with
  | .entry _ e => s.xMirror e.table r
  | .removal _ t _ => s.xMirror t r
  | .stream id seq =>
    match s.streamOf id with
    | some x => if x.mode = 1 then { s with cb := mset s.cb id { x with seq := seq } } else s
    | none => s
  | .bfd id b => { s with hst := { s.hst with bfd := mset s.hst.bfd id b } }
  | .snapBegin => (({ s with twin := { s.twin with ask := false } }.setSynced false).setF F.RED_STATUS_SYNCING 1).setF F.RED_SYNC_PROGRESS 0
  | .snapEnd =>
    ((((s.setSynced true).setF F.RED_STATUS_SYNCING 0).setF F.RED_SYNC_PROGRESS 100).sat F.RED_SYNC_SNAPSHOTS 1).raise 101

/-- A cell names this member and its peer: DEST_EP is MY_EP, and SRC_EP is PEER_EP (R307, R309). -/
def State.fromPeer (s : State) (dest src : BitVec 10) : Bool :=
  dest.toNat == s.myEp && src.toNat == s.f F.RED_CTRL_PEER_EP

/-- A cell of the twin link arrives: hellos, and data cells in SEQ order. -/
def State.twinCell (s : State) (c : TwinCell) : State :=
  match c with
  | .idle => s
  | .hello dest src h => if s.fromPeer dest src && s.helloOk h then s.acceptHello h else s
  | .data dest src seq recs =>
    if !s.fromPeer dest src ∨ !s.twinUp ∨ seq ≠ s.twin.rxNext then s
    else
      let s1 := { s with twin := { s.twin with rxNext := (seq + 1) % 2 ^ 24 } }
      if s1.principal then s1 else recs.foldl State.applyRec s1

/-- Uncorrectable codewords of a twin-link lane. -/
def State.twinUncorr (s : State) (l n : Nat) : State :=
  let e := List.replicate n s.pica.num ++ mgetD s.twin.errs l []
  let s1 := { s with twin := { s.twin with errs := mset s.twin.errs l e } }.sat F.RED_TWIN_STATUS_UNCORR n
  if reached e s.pica.num (s.f F.RED_TWIN_CFG_RETIRE_THR) then s1.twinRetire l else s1

/-- RETIRED as received on a twin-link lane. -/
def State.twinFar (s : State) (l : Nat) (b : Bool) : State :=
  let far := if b then (if s.twin.far.contains l then s.twin.far else s.twin.far ++ [l]) else s.twin.far.filter (· != l)
  { s with twin := { s.twin with far := far } }.twinShow l

/-- Meaning of TWIN_LANE_FRAME_RECEIVE: a locked lane decodes a lane frame like a fabric lane's (R277, R308). -/
def execTwinLaneFrameReceive (lane : Fin 2) (frame : LaneFrame TwinCell) (s : State) : Ans :=
  s.onCore fun s =>
    let l := lane.val
    if !s.doublet ∨ !(mgetD s.twin.align l {}).locked then s
    else if frame.bad ≠ 0 then s.twinUncorr l frame.bad.val
    else
      let s1 := if laneHeadOk frame.head then s.twinFar l (bit frame.head.toNat 39) else s
      if s1.twinRetired l || s1.twin.far.contains l then s1 else (frame.cells.take 3).foldl State.twinCell s1

/-- KIND of a record (Table 13-4). -/
def recKind (r : MirRec) : Nat :=
  match r with
  | .entry _ _ => 1 | .removal _ _ _ => 2 | .stream _ _ => 3 | .bfd _ _ => 4 | .snapBegin => 16 | .snapEnd => 17

/-- Bytes of a record (Table 13-4). -/
def recBytes (r : MirRec) : Nat :=
  match r with
  | .entry store _ => if store = 0 then 24 else 40
  | .removal store _ _ => if store = 0 then 16 else 40
  | .stream _ _ => 16
  | .bfd _ _ => 64
  | .snapBegin | .snapEnd => 8

/-- What a record holds, as numbers. -/
def recFields (r : MirRec) : List Nat :=
  match r with
  | .entry store e => [store, e.table]
  | .removal store table key => [store, table, key]
  | .stream id seq => [id, seq]
  | .bfd id b =>
    [id, b.myDisc, b.yourDisc, b.state, b.peerState, b.diag, b.txUs, b.rxUs, b.mult, b.peerTxUs, b.peerRxUs, b.peerMult, b2n b.poll]
  | .snapBegin | .snapEnd => []

/-- The body of a record: an entry as Table 6-2 lays it out, any other in a layout the spec does not give (log entry 26). -/
def recBody (r : MirRec) : List Byte :=
  match r with
  | .entry store e => (List.range (if store = 0 then 2 else 4)).flatMap fun w => beBytes 8 (xRow (store == 1) e w)
  | _ => Config.mirrorBody (recKind r) (recFields r)

/-- A record as its bytes (R311): KIND and the length of the body in its header, then the body. -/
def recWire (r : MirRec) : List Byte :=
  let n := recBytes r - 8
  beBytes 8 (recKind r * 2 ^ 56 + n * 2 ^ 44 + (Config.mirrorHead (recKind r) (recFields r)).toNat) ++
    (List.range n).map fun i => (recBody r).getD i 0

/-- Fill a data cell with the record in progress and the records of the queue, as R282 packs them: a record may start in one
cell and end in a later one. Answers the cell, what is left of the record in progress, and the queue. -/
def packCell : Nat → TwinSend → Option (MirRec × List Byte) → List MirRec → TwinSend × Option (MirRec × List Byte) × List MirRec
  | 0, c, part, q => (c, part, q)
  | k + 1, c, part, q =>
    let room := 240 - c.payload.length
    if room = 0 then (c, part, q)
    else
      match part with
      | some (r, b) =>
        let c1 := { c with payload := c.payload ++ b.take room }
        if b.length ≤ room then packCell k { c1 with ends := c1.ends ++ [r] } none q else (c1, some (r, b.drop room), q)
      | none =>
        match q with
        | [] => (c, none, [])
        | r :: rest => packCell k { c with fh := if c.fh = 255 then c.payload.length else c.fh } (some (r, recWire r)) rest

/-- A data cell to send: TYPE 0b01, TC 0, from this member to its peer. -/
def State.dataCell (s : State) (seq : Nat) (c : TwinSend) : List Byte :=
  mkCell 1 0 s.epoch4 (s.f F.RED_CTRL_PEER_EP) s.myEp c.fh seq c.payload

/-- A hello to send (Table 13-3). -/
def State.helloCell (s : State) (h : Hello) : List Byte :=
  let r0 := h.ver * 2 ^ 56 + h.member * 2 ^ 55 + b2n h.principal * 2 ^ 54 + b2n h.synced * 2 ^ 53 + b2n h.roleDown * 2 ^ 52 +
    b2n h.snapReq * 2 ^ 51 + b2n h.resync * 2 ^ 50 + h.ack
  mkCell 2 Config.cellTc.toNat s.epoch4 (s.f F.RED_CTRL_PEER_EP) s.myEp 255 0 (beBytes 8 r0 ++ beBytes 8 h.pica)

/-- The next data cell: one to resend, or a new one while fewer than 8,192 are unacknowledged. RESYNC clears with the begin
record of its snapshot (R311). -/
def State.nextData (s : State) : Option (List Byte) × State :=
  match s.twin.toSend with
  | c :: rest => (some (s.dataCell c.1 c.2), { s with twin := { s.twin with toSend := rest } })
  | [] =>
    if (s.twin.queue.isEmpty && s.twin.part.isNone) ∨ 8192 ≤ s.twin.unacked.length ∨ !s.twinUp then (none, s)
    else
      let x := packCell 64 {} s.twin.part s.twin.queue
      let seq := s.twin.txSeq
      let t := { s.twin with
        queue := x.2.2, part := x.2.1, txSeq := (seq + 1) % 2 ^ 24, unacked := s.twin.unacked ++ [(seq, x.1)]
        acked := if s.twin.unacked.isEmpty then s.pica.num else s.twin.acked
        resync := s.twin.resync && !x.1.ends.contains .snapBegin }
      (some (s.dataCell seq x.1), { s with twin := t }.demoteEnd)

/-- Data cells for the rest of a lane frame. -/
def State.dataCells (s : State) : Nat → List (List Byte) × State
  | 0 => ([], s)
  | k + 1 =>
    match s.nextData with
    | (none, s1) => ([], s1)
    | (some c, s1) =>
      let r := s1.dataCells k
      (c :: r.1, r.2)

/-- Meaning of TWIN_LANE_FRAME_SEND: a lane frame with the lane's hello, when one is due, data cells, and idle cells. -/
def execTwinLaneFrameSend (lane : Fin 2) (s : State) : Ans :=
  s.onCore fun s =>
    let l := lane.val
    if !s.doublet then s
    else
      let cnt := mgetD s.twin.cnt l 0
      let due := s.twin.due.contains l
      let s1 := { s with twin := { s.twin with due := s.twin.due.filter (· != l), cnt := mset s.twin.cnt l ((cnt + 1) % 65536) } }
      let h := if due && s.twinLive l then [s.helloCell s.myHello] else []
      let r := if s.twinLive l then s1.dataCells (3 - h.length) else ([], s1)
      let cells := h ++ r.1
      r.2.emit (.twinTx l (laneFrame (laneHead l cnt (s.twinRetired l)) (cells ++ List.replicate (3 - cells.length) s.idleCell)))

/-- Meaning of MIRROR_RESEND_TIMEOUT: no acknowledgement has advanced for 1,250 picas, and every unacknowledged cell is
to be sent again in order (R309). -/
def execMirrorResendTimeout (s : State) : Ans :=
  s.onCore fun s =>
    if s.twinUp && !s.twin.unacked.isEmpty && decide (s.twin.acked + 1250 ≤ s.pica.num) then
      { s with twin := { s.twin with toSend := s.twin.unacked, acked := s.pica.num } }
    else s

/-- Meaning of TWIN_LINK_TIMEOUT: 6,250 picas without an accepted hello; the link is down, a second member is no longer
synced, and each member follows ARB_ROLE alone (R310, R312, R321). -/
def execTwinLinkTimeout (s : State) : Ans :=
  s.onCore fun s =>
    if s.twinUp && decide (s.twin.lastHello + 6250 ≤ s.pica.num) then
      let s1 := s.twinDrop.demoteEnd
      let s2 := if s1.principal then s1 else s1.setSynced false
      if s2.fb F.RED_STATUS_ARB_ROLE && !s2.principal then { s2 with red := { s2.red with promoting := true } } else s2
    else s

/-! ### Snapshot walks (R312) -/

/-- An entry that a walk sends: of an enabled table, learned or session. -/
def State.walkSends (s : State) (e : XEntry) : Bool := s.xEn e.table && (e.kind == 0 || e.kind == 1)

/-- The records of some buckets of a store. -/
def State.walkBuckets (s : State) (store pos n : Nat) : List MirRec :=
  (List.range n).flatMap fun i => (List.range 4).filterMap fun w =>
    match mget s.exm.ent (entKey store (pos + i) w) with
    | some e => if s.walkSends e then some (.entry store e) else none
    | none => none

/-- The records of some CAM entries of a store. -/
def State.walkCam (s : State) (store pos n : Nat) : List MirRec :=
  (List.range n).filterMap fun i =>
    match mget s.exm.cam (camKey store (pos + i)) with
    | some c => if s.walkSends c.e then some (.entry store c.e) else none
    | none => none

/-- Buckets of a store (Table 6-1). -/
def bucketCount (store : Nat) : Nat := if store = 0 then 262144 else 4194304

/-- One pica of a store's walk from a position: its records and the next position; buckets first, then the CAM. -/
def State.walkStore (s : State) (store pos : Nat) : List MirRec × Nat :=
  let b := bucketCount store
  let n := if store = 0 then 4 else 1
  if pos < b then (s.walkBuckets store pos n, pos + n)
  else if pos < b + camSize store then (s.walkCam store (pos - b) 4, pos + 4)
  else ([], pos)

/-- A store's walk is complete. -/
def walked (store pos : Nat) : Bool := decide (bucketCount store + camSize store ≤ pos)

/-- The records after the walks: every valid recover-mode stream and every BFD session. -/
def State.tailRecs (s : State) : List MirRec :=
  (s.cb.filterMap fun kv => if kv.2.valid ∧ kv.2.mode = 1 then some (.stream kv.1 kv.2.seq) else none) ++
    s.hst.bfd.map fun kv => .bfd kv.1 kv.2

/-- Snapshot progress in percent of both walks. -/
def walkPercent (near far : Nat) : Nat :=
  (near + far) * 100 / (bucketCount 0 + camSize 0 + bucketCount 1 + camSize 1)

/-- The read of the far store that the far walk makes next: a bucket is asked for in class FAR (R229), and its poisoned ways
are freed and reported (R142). -/
def State.farWalkRead (s : State) : Bool × State :=
  let b := s.twin.farPos
  if b < bucketCount 1 then
    let ways := (List.range 4).map (entKey 1 b)
    let r := s.hbmAsk 2 true (farSpans ways)
    match r.1, (List.range 16).find? fun t =>
      s.xEn t && s.xStore t == 1 && decide (s.f F.XMT_TBL_BASE_BASE t ≤ b) && decide (b < s.f F.XMT_TBL_BASE_BASE t + s.xSize t) with
    | true, some t => (true, r.2.xScrub t ways fun _ => false)
    | _, _ => r
  else (true, s)

/-- Meaning of SNAPSHOT_WALK_STEP: both walks go on by one pica's share; when they are complete the stream and BFD records
follow, four a step, and the end record (R312). Where that one finds the queue full, the snapshot that R311 then starts is
under way. -/
def execSnapshotWalkStep (s : State) : Ans :=
  s.onCore fun s =>
    if !s.twin.snap || !s.principal || !s.twinUp then s
    else if walked 0 s.twin.nearPos && walked 1 s.twin.farPos then
      let l := s.tailRecs.drop s.twin.tailPos
      if l.isEmpty then
        let u := { s with twin := { s.twin with snap := false } }.mirrorRec .snapEnd
        if u.twin.snap then u else (u.setF F.RED_STATUS_SYNCING 0).sat F.RED_SYNC_SNAPSHOTS 1
      else (l.take 4).foldl State.mirrorRec { s with twin := { s.twin with tailPos := s.twin.tailPos + 4 } }
    else
      let r := s.farWalkRead
      let a := r.2.walkStore 0 s.twin.nearPos
      let b := if r.1 then r.2.walkStore 1 s.twin.farPos else ([], s.twin.farPos)
      let s1 := { r.2 with twin := { r.2.twin with nearPos := a.2, farPos := b.2 } }
      (a.1 ++ b.1).foldl State.mirrorRec (s1.setF F.RED_SYNC_PROGRESS (walkPercent a.2 b.2))

end Sys2Proof.Machine
end

