-- ==== Sys2Proof/Machine/Tick.lean ====
section
/-! DEFINITION. What the clocks bring: pica boundaries, whole seconds, alignment patterns, and the drain fences, which count
picas. -/
namespace Sys2Proof.Machine

/-! ### Pica boundaries (R25, R29, R110, R219) -/

/-- Heads that waited for node visits count their pica (R110), and the shares of a pica open again. -/
def State.openShares (s : State) : State :=
  let s1 := s.prs.waited.foldl (fun (u : State) sl => u.sat F.PRS_SLICE_STAT_OVER_PICAS 1 sl) s.genPica.arbBoundary
  { s1 with prs := { s1.prs with heads := [], visits := [], waited := [] }
            ppe := { s1.ppe with relUsed := [] }
            exm := { s1.exm with looked := [], reads := [], swept := [] }
            buf := { s1.buf with wrote := 0, read := 0 }
            que := { s1.que with refilled := [], replicas := 0, picks := [] }
            cnt := { s1.cnt with flushed := 0, taken := [] }
            trn := { s1.trn with slots := slotsCarry s1.trn.slots }
            fab := { s1.fab with ctlUsed := 0, matched := false, slotsUsed := [] } }

/-- Meaning of PICA_BOUNDARY: FD starts a pica; sweepers, performance counters and a snapshot asked for take the boundary,
and both dies send their vote windows. The time base runs on while the CORE group does not (log entry 5). -/
def execPicaBoundary (s : State) : Ans :=
  s.onMgmt fun s =>
    if s.coreRuns then
      let s1 := s.nextPica.openShares.sweepPica.pcBoundary.snapshotBegin
      (s1.sendWindow 0).sendWindow 1
    else { s with tb := s.tb.tick 8 }

/-! ### Whole seconds (R43, R47, R74) -/

/-- Seconds left in the proof window count down (MGT_PROOF). -/
def State.proofSecond (s : State) : State :=
  if s.fb F.MGT_STATUS_PROOF then s.setF F.MGT_PROOF_REMAIN_S (s.f F.MGT_PROOF_REMAIN_S - 1) else s

/-- LOCK_S of both paths counts down (R356). -/
def State.lockSecond (s : State) : State :=
  let f := fun (x : Session) => if x.state = 4 then { x with lockS := x.lockS - 1 } else x
  { s with hst := { s.hst with pcie := f s.hst.pcie, smbus := f s.hst.smbus } }

/-- Meaning of WHOLE_SECOND: pending writes apply, a new SEC restarts the Galleys (R270), PPS_OUT rises, and the line
counters, with what the ports' PCS decoded in the second, latch. -/
def execWholeSecond (s : State) (pcs : List PcsCounts := []) : Ans :=
  s.onMgmt fun s =>
    let free := s.tb.secNow
    let free' := if s.tb.ns / nsPerSec = 0 then free + 1 else free
    let t := s.tb.second
    let s1 := { s with tb := t }
    let s2 := if s.tb.pendSec.isSome then s1.galleysRestart (((t.sec : Int) - free') * nsPerSec) else s1
    let s3 := s2.ppsRise.proofSecond.lockSecond
    if s3.coreRuns then (pcs.foldl State.pcsCount s3).lneLatch else s3

/-! ### Alignment (R64, R277, R308) -/

/-- The exact spacing of the ALIGN pattern of fabric and twin-link lanes in bits (R277). -/
def alignSpacing : Nat := 6800

/-- A fabric lane's machine evaluates a position. -/
def State.alignFab (s : State) (l x : Nat) (hit : Bool) : State :=
  if s.standalone ∨ 160 ≤ l then s
  else
    let r := (mgetD s.fab.align l {}).eval (alignN (s.f F.FAB_CTRL_N)) (alignM (s.f F.FAB_CTRL_M)) alignSpacing x hit
    { s with fab := { s.fab with align := msetD s.fab.align l {} r.1 } }.fabShow l

/-- A twin-link lane's machine evaluates a position. -/
def State.alignTwin (s : State) (l x : Nat) (hit : Bool) : State :=
  if !s.doublet ∨ 2 ≤ l then s
  else
    let r := (mgetD s.twin.align l {}).eval (alignN (s.f F.RED_TWIN_CFG_N)) (alignM (s.f F.RED_TWIN_CFG_M)) alignSpacing x hit
    { s with twin := { s.twin with align := msetD s.twin.align l {} r.1 } }.twinShow l

/-- Meaning of ALIGN_PATTERN: the alignment machine of a lane evaluates a position, where the pattern matched or not. -/
def execAlignPattern (group : AlignGroup) (lane : BitVec 8) (position : Nat) (hit : Bool) (s : State) : Ans :=
  s.onCore fun s =>
    match group with
    | .line port marker =>
      if s.portEn port.toNat ∧ lane.toNat < alignLanes (s.portMode port.toNat) ∧ !s.refLostAt port.toNat then
        s.alignLine port.toNat lane.toNat position hit (marker.getD lane).toNat
      else s
    | .fabric => s.alignFab lane.toNat position hit
    | .twin => s.alignTwin lane.toNat position hit

/-! ### Drain fences (R144 to R146) -/

/-- Entry picas of the packets that threads hold; the packet of an ending thread has left it (R189). -/
def State.threadPicas (s : State) : List Nat :=
  s.ppe.threads.filterMap fun kv => if kv.2.state == .free || kv.2.state == .ending then none else some kv.2.entryPica

/-- Injected frames in the ingress FIFOs, which are inside from their acceptance. -/
def State.injectPicas (s : State) : List Nat :=
  s.cry.fifo.flatMap fun kv => kv.2.filterMap fun f => if f.inject.isSome then some f.entered else none

/-- Outputs that wait between the program's end and the buffer store. -/
def State.groupPkts (s : State) : List Pkt :=
  s.ppe.rob.flatMap (fun kv => kv.2.flatMap fun e => e.sent.toList ++ e.outs) ++
  s.buf.flight.flatMap (fun kv => kv.2.outs) ++
  s.buf.desc.flatMap (fun kv => kv.2.flatMap (·.outs)) ++
  s.buf.wait.flatMap (fun kv => kv.2.flatMap fun w => match w.group with | some g => g.outs | none => [])

/-- Frames that hold no buffer: in HBM and behind the egress editor. -/
def State.farPkts (s : State) : List Pkt :=
  s.que.q.flatMap (fun kv => kv.2.hbm.flatMap (·.frames)) ++
  s.que.espOut.flatMap (fun kv => kv.2.map (·.2)) ++ s.que.toLine.flatMap (fun kv => kv.2.map (·.1))

/-- Entry picas of every frame inside (R144). -/
def State.insidePicas (s : State) : List Nat :=
  s.threadPicas ++ s.injectPicas ++ (s.groupPkts ++ s.heldPkts ++ s.farPkts).map (·.entered)

/-- The entry pica of the oldest frame inside, none when there is none. -/
def State.oldest (s : State) : Option Nat := s.insidePicas.min?

/-- XMT_FENCE_OLDEST: all ones when no frame is inside. -/
def State.oldestWord (s : State) : Nat := s.oldest.getD (2 ^ 64 - 1)

/-- A FENCE command is issued (R145): its generation, or none where 127 are outstanding. -/
def State.fenceIssue (s : State) : Option Nat × State :=
  if 127 ≤ s.exm.fences.length then (none, s)
  else
    let g := (s.f F.XMT_FENCE_STATUS_ISSUED + 1) % 256
    let s1 := { s with exm := { s.exm with fences := s.exm.fences ++ [({ gen := g, pica := s.pica.num } : Fence)] } }
    (some g, (s1.setF F.XMT_FENCE_STATUS_ISSUED g).setF F.XMT_FENCE_STATUS_OUTSTANDING (s.exm.fences.length + 1))

/-- Generation g is done (R145). -/
def State.fenceDone (s : State) (g : Nat) : Bool := decide ((s.f F.XMT_FENCE_STATUS_DONE + 256 - g) % 256 < 128)

/-- Meaning of FENCE_DONE: no frame older than the oldest fence is inside. -/
def execFenceDone (s : State) : Ans :=
  s.onCore fun s =>
    match s.exm.fences with
    | [] => s
    | f :: rest =>
      if (s.insidePicas.all fun p => decide (f.pica ≤ p)) then
        let s1 := { s with exm := { s.exm with fences := rest } }
        ((s1.setF F.XMT_FENCE_STATUS_DONE f.gen).setF F.XMT_FENCE_STATUS_OUTSTANDING rest.length).raise 292
      else s

/-- Meaning of FENCE_SLOW: the oldest fence has waited longer than XMT_FENCE_WARN.US; once per fence (R146). -/
def execFenceSlow (s : State) : Ans :=
  s.onCore fun s =>
    match s.exm.fences with
    | [] => s
    | f :: rest =>
      let us := s.f F.XMT_FENCE_WARN_US
      if us = 0 ∨ f.slow ∨ (s.pica.num - f.pica) * 16 ≤ us * 1000 then s
      else
        let s1 := { s with exm := { s.exm with fences := { f with slow := true } :: rest } }
        (s1.setF F.XMT_FENCE_STATUS_SLOW 1).raise 291

end Sys2Proof.Machine
end

