-- ==== Sys2Proof/Machine/Power.lean ====
section
/-! DEFINITION. Power states and temperature (R393 to R399). -/
namespace Sys2Proof.Machine

/-! ### Conditions of Table 16-4 -/

/-- Some lane of group g belongs to no enabled port and runs no lane test. -/
def State.laneIdle (s : State) (g : Nat) : Bool :=
  (List.range 16).any fun l =>
    !s.laneInUse g l && !s.fb F.LNE_LANE_TEST_GEN_EN g l && !s.fb F.LNE_LANE_TEST_CHK_EN g l

/-- The L0 nodes that QD slice g runs (R261). -/
def nodesOf (g n : Nat) : Bool := n / 16 == g && n < 128 || (128 ≤ n && (n - 128) / 2 == g)

/-- The L0 nodes of group g hold no frame, and none is on its way from them. -/
def State.nodesEmpty (s : State) (g : Nat) : Bool :=
  (s.que.q.all fun kv => decide (s.frameCount kv.1 = 0) || !((s.queueL0 kv.1).any (nodesOf g))) &&
  (s.que.flight.all fun kv => !nodesOf g kv.2.1) && (s.que.toEdit.all fun x => x.1 / 16 != g) &&
  (s.que.toLine.all fun kv => kv.1 / 16 != g || kv.2.isEmpty) && (mgetD s.que.espOut g []).isEmpty

/-- No frame waits for a thread of slice g, no thread is busy and no reorder entry is held. -/
def State.sliceIdle (s : State) (g : Nat) : Bool :=
  (s.fifoOf g).isEmpty && (mgetD s.cry.espIn g []).isEmpty && (s.robOf g).isEmpty &&
  (s.ppe.threads.all fun kv => thSlice kv.1 != g || kv.2.state == .free)

/-- An inject ring may let frames in: host rings name their ports in the slots alone, so an enabled one admits to every
slice; a ring of the resident services does while slots wait (log entry 40). -/
def State.injecting (s : State) : Bool :=
  (List.range 16).any fun r => s.fb F.HST_INJ_CFG_EN r || !(mgetD s.hst.resInj r []).isEmpty

/-- A program or graph commit names slice g and has not ended. -/
def State.committing (s : State) (g : Nat) : Bool :=
  bit (s.f F.PRS_BANK_STATUS_PENDING) g || bit (s.f F.PPE_BANK_STATUS_PENDING) g

/-- The condition of P2 for group g. -/
def State.p2Cond (s : State) (g : Nat) : Bool :=
  s.sliceDisabled g && s.nodesEmpty g && s.sliceIdle g && !s.injecting && !s.committing g

/-- The deepest of P1 and P2 that LTR_US and the conditions allow group g (R394). -/
def State.deepest (s : State) (g : Nat) : Nat :=
  let ltr := s.f F.PWR_GRP_CFG_LTR_US g
  if 20 ≤ ltr ∧ s.p2Cond g then 2 else if 2 ≤ ltr ∧ s.laneIdle g then 1 else 0

/-- The condition of P3 but for the absence of HBM accesses, which the arrival of the command says: a group that an exit
trigger has taken on its way out of P2 is not in P2 (R395, R400). -/
def State.p3Cond (s : State) : Bool :=
  s.standalone && s.fb F.PWR_CTRL_P3_EN && s.pwr.leaving.isEmpty &&
  (List.range 8).all fun g => s.f F.PWR_GRP_STATUS_STATE g == 2 && 500 ≤ s.f F.PWR_GRP_CFG_LTR_US g

/-! ### Entry and exit -/

/-- A group's state changes: ENTRIES counts entries into P2 or deeper, and PWR_STATE is raised. -/
def State.setGroup (s : State) (g v : Nat) : State :=
  let old := s.f F.PWR_GRP_STATUS_STATE g
  if old = v then s
  else
    let s1 := s.setF F.PWR_GRP_STATUS_STATE v g
    (if old < 2 ∧ 2 ≤ v then s1.sat F.PWR_GRP_STATUS_ENTRIES 1 g else s1).raise 9

/-- The device's state changes with every group's. -/
def State.setDevice (s : State) (v : Nat) : State :=
  (List.range 8).foldl (fun u g => u.setGroup g v) ((s.setF F.PWR_STATUS_DEVICE v).raise 9)

/-- An exit from P1, P2 or P3 of a group, or of the device (8), starts (R395). -/
def State.exitStart (s : State) (g : Nat) : State :=
  let k := if s.f F.PWR_STATUS_DEVICE = 3 then 8 else g
  if s.pwr.leaving.contains k then s else { s with pwr := { s.pwr with leaving := s.pwr.leaving ++ [k] } }

/-- A trigger of group g: nothing where the group runs (R395). -/
def State.trigGroup (s : State) (g : Nat) : State :=
  let st := s.f F.PWR_GRP_STATUS_STATE g
  if 1 ≤ st ∧ st ≤ 3 then s.exitStart g else s

/-- A trigger of the whole device in P3: an HBM access from the management cores, DMA or BAR2. -/
def State.trigDevice (s : State) : State := if s.f F.PWR_STATUS_DEVICE = 3 then s.exitStart 8 else s

/-- Meaning of POWER_STATE_ENTRY: a group's condition, or the device's (8), has held for HOLD_US. An exit that has begun
is not turned back, and a condition that has failed enters nothing. -/
def execPowerStateEntry (group : Fin 9) (s : State) : Ans :=
  s.onMgmt fun s =>
    let g := group.val
    if !s.core || 3 ≤ s.f F.PWR_STATUS_DEVICE || s.pwr.leaving.contains g || s.pwr.p4Drain then s
    else if g = 8 then (if s.p3Cond then s.setDevice 3 else s)
    else
      let d := s.deepest g
      if s.f F.PWR_GRP_STATUS_STATE g < d then s.setGroup g d else s

/-- Meaning of POWER_STATE_EXIT: a group's condition has failed, or an access needs the device in P3 (R394, R395). -/
def execPowerStateExit (group : Fin 9) (s : State) : Ans :=
  s.onMgmt fun s =>
    let g := group.val
    if g = 8 then s.trigDevice
    else if s.deepest g < s.f F.PWR_GRP_STATUS_STATE g then s.trigGroup g else s

/-- Meaning of POWER_STATE_EXIT_DONE: the exit latency has passed and the group, or the device with every group, is in P0. -/
def execPowerStateExitDone (group : Fin 9) (s : State) : Ans :=
  s.onMgmt fun s =>
    let g := group.val
    if s.pwr.leaving.contains g then
      let s1 := { s with pwr := { s.pwr with leaving := s.pwr.leaving.filter (· != g) } }
      if g = 8 then s1.setDevice 0 else s1.setGroup g 0
    else s

/-- The effect of a write of LTR_US: a value below the latency of the state in force starts an exit (R394). -/
def State.ltrHook (s : State) (g : Nat) : State :=
  let ltr := s.f F.PWR_GRP_CFG_LTR_US g
  let st := s.f F.PWR_GRP_STATUS_STATE g
  if (st = 1 ∧ ltr < 2) ∨ (st = 2 ∧ ltr < 20) ∨ (st = 3 ∧ ltr < 500) then s.exitStart g else s

/-! ### P4 (R396) -/

/-- The frames inside, as stored length and ingress port. The packet of an ending thread is dropped already or in its
reorder entry. -/
def State.insideFrames (s : State) : List (Nat × Nat) :=
  s.cry.fifo.flatMap (fun kv => kv.2.map fun f => (f.bytes.length, f.port)) ++
  s.cry.espIn.flatMap (fun kv => kv.2.map fun f => (f.bytes.length, f.port)) ++
  s.ppe.threads.filterMap (fun kv => match kv.2.state, kv.2.frame with
    | .free, _ => none
    | .ending, _ => none
    | _, some f => some (kv.2.bytes.length, f.port)
    | _, none => none) ++
  (s.groupPkts ++ s.heldPkts ++ s.farPkts).map fun p => (p.bytes.length, p.port)

/-- Every frame inside is gone: FIFOs, threads, reorder entries, buffers, queues, cells and bundles are empty. -/
def State.clearFrames (s : State) : State :=
  let s1 := { s with
    cry := { s.cry with fifo := [], espIn := [] }
    ppe := { s.ppe with threads := [], rob := [], resp := [] }
    exm := { s.exm with reqs := [] }
    trn := { s.trn with q := [], held := [] }
    buf := { s.buf with link := [], pools := mmap (fun _ _ => (0, [])) s.buf.pools, flight := [], desc := [], chan := [],
                        wait := [], bundleFresh := 0, bundleFree := [], full := [], badLinks := [] }
    que := { s.que with
                        q := [], mc := [], mcWork := none, flight := [], toEdit := [], espOut := [], toLine := [], toPunt := [],
                        arrivals := [], flush := none }
    fab := { s.fab with flows := mmap (fun _ (x : Flow) => { x with rest := [], frame := none }) s.fab.flows, out := [], ctx := [],
                        done := [] } }
  let s1 := ((List.range 8).foldl (fun (u : State) sl => (u.setF F.PPE_ROB_STATUS_ROB_USED 0 sl).busyCount sl) s1).settleSwap
  let s2 := s1.poolList.foldl (fun (u : State) k => u.setF F.BUF_POOL_FREE_FREE (u.poolFree k) k) s1
  (if s2.fb F.BUF_STATUS_CFG_DONE then s2.setF F.BUF_SPILL_FREE s2.bundlesFree else s2).setF F.QUE_STATUS_FLUSH_BUSY 0

/-- The lanes stop: no lane is locked. -/
def State.stopLanes (s : State) : State :=
  let s1 := { s with lne := { s.lne with align := [] }, fab := { s.fab with align := [] }
                     twin := { s.twin with align := [] } }
  (List.range 160).foldl (fun u l => u.fabShow l) s1

/-- The effect of P4_REQ changing to 1: refused in Doublet mode; received frames end and the frames inside drain. -/
def State.p4Ask (s : State) : State := { s with pwr := { s.pwr with p4Drain := true, p4Relock := false } }

/-- The effect of P4_REQ changing to 0: a drain is abandoned (R400); out of P4 the PLLs relock and the lanes of enabled
ports restart. -/
def State.p4Free (s : State) : State :=
  let s1 := { s with pwr := { s.pwr with p4Drain := false, p4Relock := s.f F.PWR_STATUS_DEVICE == 4 } }
  if s1.pwr.p4Relock then (List.range 128).foldl (fun u p => u.portRestart p) s1 else s1

/-- Meaning of P4_DRAIN_TIMEOUT: the drain ends; frames still inside drop under PWR_DISCARD and the device stops. -/
def execP4DrainTimeout (s : State) : Ans :=
  s.onMgmt fun s =>
    if s.pwr.p4Drain ∧ s.core then
      let s1 := s.insideFrames.foldl (fun (u : State) f => u.drop 0xC1 f.1 f.2) s
      let s2 := s1.clearFrames.stopLanes
      { s2 with pwr := { s2.pwr with p4Drain := false, leaving := [] } }.setDevice 4
    else s

/-- Meaning of P4_EXIT_DONE: the device is back in P0, once the CORE group is not held (R396, R400). -/
def execP4ExitDone (s : State) : Ans :=
  s.onMgmt fun s =>
    if s.pwr.p4Relock ∧ s.core then { s with pwr := { s.pwr with p4Relock := false } }.setDevice 0 else s

/-! ### Temperature (R398, R399) -/

/-- A signed temperature in quarters of a degree as PWR_THERM_SENSOR holds it. -/
def tempOf (v : Nat) : Int := signed16 v

/-- The hottest sensor: its number and temperature; the lowest number where several are. -/
def State.hottest (s : State) : Nat × Int :=
  (List.range 26).foldl (fun (b : Nat × Int) i =>
    let t := tempOf (s.f F.PWR_THERM_SENSOR_TEMP i)
    if b.2 < t then (i, t) else b) (0, tempOf (s.f F.PWR_THERM_SENSOR_TEMP 0))

/-- Is a threshold in °C in force, given whether it was: it sets at the threshold and clears 2 °C below it. -/
def thermFlag (was : Bool) (hot : Int) (thr : Nat) : Bool :=
  if was then decide ((thr : Int) * 4 - 8 < hot) else decide ((thr : Int) * 4 ≤ hot)

/-- The actions on the hottest sensor. -/
def State.thermAct (s : State) : State :=
  let h := s.hottest
  let s1 := (s.setF F.PWR_THERM_STATUS_MAX_C ((h.2.fdiv 4).emod 256).toNat).setF F.PWR_THERM_STATUS_MAX_SENSOR h.1
  let w0 := s.fb F.PWR_THERM_STATUS_WARN
  let c0 := s.fb F.PWR_THERM_STATUS_CRIT
  let t0 := s.fb F.PWR_THERM_STATUS_TRIP
  let w := thermFlag w0 h.2 (s.f F.PWR_THERM_CFG_WARN)
  let c := thermFlag c0 h.2 (s.f F.PWR_THERM_CFG_CRIT)
  let t := thermFlag t0 h.2 115
  let s2 := ((s1.setF F.PWR_THERM_STATUS_WARN (b2n w)).setF F.PWR_THERM_STATUS_CRIT (b2n c)).setF F.PWR_THERM_STATUS_TRIP
    (b2n t)
  let s3 := if w && !w0 then s2.raise 11 else s2
  let s4 := if c && !c0 then (s3.raise 12).raise 96 else s3
  let s5 := s4.cond 3 (c || s4.red.hw)
  if t && !t0 then (s5.raise 13).requestCore (some .thermal) else s5

/-- Meaning of THERMAL_SAMPLE: the 22 sensors of the three dies are sampled, sensors 22 to 25 repeat the stack temperatures,
and WARN, CRIT and TRIP act. -/
def execThermalSample (temps : List (BitVec 16)) (s : State) : Ans :=
  s.onMgmt fun s =>
    let s1 := (List.range 22).foldl (fun (u : State) i => u.setF F.PWR_THERM_SENSOR_TEMP (temps.getD i 0).toNat i) s
    let s2 := (List.range 4).foldl (fun (u : State) k =>
      u.setF F.PWR_THERM_SENSOR_TEMP (4 * u.f F.HBM_STACK_STATUS_TEMP k) (22 + k)) s1
    s2.thermAct

/-- Meaning of THERMAL_TRIP_RELEASE: every sensor has stayed below CRIT - 10 °C for 10 s, so the thermal hold ends. -/
def execThermalTripRelease (s : State) : Ans :=
  s.onMgmt fun s =>
    if s.grp.holds.contains .thermal ∧ s.hottest.2 < ((s.f F.PWR_THERM_CFG_CRIT : Int) - 10) * 4 then
      { s with grp := { s.grp with holds := s.grp.holds.filter (· != .thermal) } }
    else s

end Sys2Proof.Machine
end

