-- ==== Sys2Proof/Machine/Boot.lean ====
section
/-! DEFINITION. Flash, Ohmique files, boot records, start-up, Proof and Imprint, and the update states (chapter 14). -/
namespace Sys2Proof.Machine

/-! ### Flash (R328) -/

/-- A byte of flash; an erased one reads 0xFF. -/
def State.flashByte (s : State) (a : Nat) : Byte := mgetD s.boot.flash a 0xFF

/-- n bytes of flash. -/
def State.flashRead (s : State) (a n : Nat) : List Byte := (List.range n).map fun i => s.flashByte (a + i)

/-- Program bytes of flash. -/
def State.flashPut (s : State) (a : Nat) (b : List Byte) : State :=
  { s with boot := { s.boot with
    flash := (b.zipIdx).foldl (fun m (x : Byte × Nat) => msetD m (a + x.2) 0xFF x.1) s.boot.flash } }

/-- Erase n bytes of flash. -/
def State.flashErase (s : State) (a n : Nat) : State :=
  { s with boot := { s.boot with flash := mfilter (fun k _ => decide (k < a) || decide (a + n ≤ k)) s.boot.flash } }

/-- Where image slot k begins (Table 14-1). -/
def slotBase (k : Nat) : Nat := k * 0x3000000
/-- Where configuration store copy c begins. -/
def storeBase (c : Nat) : Nat := 0x6000000 + c * 0x800000
/-- Where boot record region r begins. -/
def recBase (r : Nat) : Nat := 0x7040000 + r * 0x10000
/-- The 48 MiB of an image slot. -/
def slotSize : Nat := 0x3000000
/-- The 8 MiB of a store copy. -/
def storeSize : Nat := 0x800000

/-- A byte string of exactly n bytes: cut, or filled with zeros. -/
def fit (n : Nat) (b : List Byte) : List Byte := b.take n ++ List.replicate (n - b.length) 0

/-- KMAC256 with an output of 32 bytes. -/
def kmac (k x : List Byte) (name : String) : List Byte := fit 32 (Std.kmac256 k x name)

/-- SHAKE256 with an output of n bytes. -/
def shake (x : List Byte) (n : Nat) : List Byte := fit n (Std.shake256 x n)

/-- The device wrap key (R99). -/
def State.wrapKey (s : State) : List Byte := s.boot.fuses.wrapKey

/-! ### Boot records (R334, R335) -/

/-- Bytes 0 to 95 of a boot record (Table 14-5). -/
def BootRec.body (r : BootRec) : List Byte :=
  beBytes 4 0x424F4F54 ++ beBytes 4 r.seq ++
  [BitVec.ofNat 8 r.active, BitVec.ofNat 8 (b2n r.proof), BitVec.ofNat 8 (r.prev.getD 0xFF), BitVec.ofNat 8 r.attempt,
   BitVec.ofNat 8 r.storeActive, BitVec.ofNat 8 r.storePrev] ++
  r.spares.map (fun x => BitVec.ofNat 8 x) ++ List.replicate 78 0

/-- The boot record that bytes 0 to 95 spell. -/
def recOf (b : List Byte) : BootRec :=
  let n := fun i => beNat (slice b i 1)
  { seq := beNat (slice b 4 4), active := n 8, proof := n 9 == 1, prev := if n 10 = 0xFF then none else some (n 10)
    attempt := n 11, storeActive := n 12, storePrev := n 13, spares := [n 14, n 15, n 16, n 17] }

/-- The record of a region, when its MAGIC and SEAL pass. -/
def State.recAt (s : State) (r : Nat) : Option BootRec :=
  let b := s.flashRead (recBase r) 128
  if slice b 0 4 = beBytes 4 0x424F4F54 ∧ slice b 96 32 = kmac s.wrapKey (slice b 0 96) "GKP256 boot record" then
    some (recOf b)
  else none

/-- The valid record with the higher SEQ, and its region. -/
def State.curRec (s : State) : Option (BootRec × Nat) :=
  match s.recAt 0, s.recAt 1 with
  | some a, some b => some (if a.seq < b.seq then (b, 1) else (a, 0))
  | some a, none => some (a, 0)
  | none, some b => some (b, 1)
  | none, none => none

/-- The record that boots where no region holds a valid one. -/
def defaultRec : BootRec := {}

/-- Write a record with the next SEQ into the region that does not hold the current one (R334), and take it as the
running one. -/
def State.writeRec (s : State) (r : BootRec) : State :=
  let (seq, reg) := match s.curRec with
    | some (c, k) => (c.seq + 1, 1 - k)
    | none => (0, 0)
  let r1 := { r with seq := seq }
  let b := r1.body
  let s1 := (s.flashErase (recBase reg) 0x10000).flashPut (recBase reg) (b ++ kmac s.wrapKey b "GKP256 boot record")
  { s1 with boot := { s1.boot with running := r1 } }

/-! ### Ohmique files (R329 to R332) -/

/-- A section of an Ohmique file. -/
structure Sect where
  type : Nat
  flags : Nat
  off : Nat
  size : Nat
  target : Nat
  deriving DecidableEq, Repr

/-- Section entry i of a header. -/
def sectOf (h : List Byte) (i : Nat) : Sect :=
  let e := slice h (16 + 16 * i) 16
  { type := beNat (slice e 0 2), flags := beNat (slice e 2 1), off := beNat (slice e 4 4), size := beNat (slice e 8 4)
    target := beNat (slice e 12 4) }

/-- The bytes are all zero. -/
def allZero (b : List Byte) : Bool := b.all fun x => x == 0

/-- LENGTH of a header. -/
def hdrLen (h : List Byte) : Nat := beNat (slice h 8 4)
/-- The used sections of a header. -/
def hdrSects (h : List Byte) : List Sect := (List.range (beNat (slice h 12 2))).map (sectOf h)

/-- No two sections overlap. -/
def disjointSects : List Sect → Bool
  | [] => true
  | a :: t => (t.all fun b => decide (a.off + a.size ≤ b.off) || decide (b.off + b.size ≤ a.off)) && disjointSects t

/-- The header passes R329: MAGIC, KIND, FORMAT, LENGTH, reserved bytes, and a table of sections that lie between header
and Colophon without overlap. -/
def headerOk (h : List Byte) (image : Bool) : Bool :=
  let len := hdrLen h
  let n := beNat (slice h 12 2)
  let fmt := beNat (slice h 5 1)
  slice h 0 4 == beBytes 4 0x4F484D51 && beNat (slice h 4 1) == (if image then 1 else 2) &&
  (if image then fmt == 0 else decide (1 ≤ fmt)) &&
  allZero (slice h 6 2) && allZero (slice h 14 2) &&
  len % 4096 == 0 && decide (8192 ≤ len) && decide (len ≤ if image then slotSize else storeSize) &&
  decide (1 ≤ n) && decide (n ≤ 255) && allZero (slice h (16 + 16 * n) (4096 - 16 - 16 * n)) &&
  ((hdrSects h).all fun x => decide (4096 ≤ x.off) && decide (x.off + x.size ≤ len - 4096)) &&
  disjointSects (hdrSects h) &&
  (List.range n).all fun i => allZero (slice h (16 + 16 * i + 3) 1)

/-- The section types of an image (Table 14-4). -/
def imageSectsOk (h : List Byte) : Bool :=
  (hdrSects h).all fun x => decide (1 ≤ x.type) && decide (x.type ≤ 6) && (x.type != 5 || x.target == 0)

/-- The reserved bytes of an image Colophon. -/
def imageColZero (c : List Byte) : Bool :=
  allZero (slice c 16 16) && allZero (slice c 96 32) && allZero (slice c 1921 1) && allZero (slice c 3254 842)

/-- The Colophon of an image is well formed. -/
def imageColOk (c : List Byte) : Bool :=
  slice c 0 4 == beBytes 4 0x434F4C4F && beNat (slice c 4 1) == 1 && decide (beNat (slice c 5 1) ≤ 3) && imageColZero c &&
  decide (beNat (slice c 1922 2) ≤ 1330) &&
  allZero (slice c (1924 + beNat (slice c 1922 2)) (1330 - beNat (slice c 1922 2)))

/-- The device's ordering code is bit `ORDER` of ORDER_MASK. -/
def State.orderOk (s : State) (mask : Nat) : Bool := bit mask (s.f F.HST_ID_ORDER)

/-- The checks of R332 up to the digest, on the header and the Colophon: the code of the first that fails, 0 where none
does. -/
def State.imagePre (s : State) (h c : List Byte) : Nat :=
  let slot := beNat (slice c 5 1)
  let svn := beNat (slice c 6 1)
  if !(headerOk h true && imageSectsOk h) then 0x01
  else if !imageColOk c then 0x01
  else
    match mget s.boot.fuses.slots slot with
    | none => 0x04
    | some key =>
      if s.boot.fuses.revoked.contains slot then 0x04
      else if shake (slice c 128 1793) 32 ≠ key then 0x04
      else if !Std.falconVerify (slice c 128 1793) (slice c 1924 (beNat (slice c 1922 2))) (slice c 0 1921) then 0x03
      else if 64 < svn then 0x06
      else if svn < s.boot.fuses.svn then 0x05
      else if !s.orderOk (beNat (slice c 14 1)) then 0x07
      else 0

/-- The header of a file in flash. -/
def State.fileHdr (s : State) (base : Nat) : List Byte := s.flashRead base 4096
/-- The Colophon of a file in flash. -/
def State.fileCol (s : State) (base : Nat) : List Byte := s.flashRead (base + hdrLen (s.fileHdr base) - 4096) 4096
/-- The digest of a file matches its Colophon. -/
def State.digestOk (s : State) (base : Nat) : Bool :=
  shake (s.flashRead base (hdrLen (s.fileHdr base) - 4096)) 64 == slice (s.fileCol base) 32 64

/-- The checks of R332 up to the digest on an image slot. -/
def State.slotPre (s : State) (k : Nat) : Nat := s.imagePre (s.fileHdr (slotBase k)) (s.fileCol (slotBase k))

/-- R332 whole on an image slot. -/
def State.slotCheck (s : State) (k : Nat) : Nat :=
  let c := s.slotPre k
  if c ≠ 0 then c else if s.digestOk (slotBase k) then 0 else 0x02

/-- The SEAL of a store's Colophon (R331). -/
def State.storeSeal (s : State) (c : List Byte) : List Byte := kmac s.wrapKey (slice c 0 96) "GKP256 config store"

/-- The Colophon of a store is well formed (R329, R331): MAGIC, KIND, FORMAT as in the header, reserved bytes zero. -/
def storeColOk (h c : List Byte) : Bool :=
  slice c 0 4 == beBytes 4 0x434F4C4F && beNat (slice c 4 1) == 2 && allZero (slice c 5 3) && slice c 12 1 == slice h 5 1 &&
  allZero (slice c 13 1) && allZero (slice c 15 17) && allZero (slice c 128 3968)

/-- A store copy qualifies for an image that accepts formats lo to hi (R338): the code of the first check that fails, 0
where none does. -/
def State.storeCheck (s : State) (c lo hi : Nat) : Nat :=
  let h := s.fileHdr (storeBase c)
  let col := s.fileCol (storeBase c)
  let fmt := beNat (slice h 5 1)
  if !(headerOk h false && storeColOk h col) then 0x01
  else if slice col 96 32 ≠ s.storeSeal col then 0x08
  else if !s.digestOk (storeBase c) then 0x02
  else if beNat (slice col 14 1) ≠ s.f F.HST_ID_ORDER then 0x09
  else if fmt < lo ∨ hi < fmt then 0x0A
  else 0

/-! ### Choosing the image (R335) -/

/-- BOOT_ERR. -/
def State.bootErr (s : State) (c : Nat) : State := s.setF F.MGT_STATUS_BOOT_ERR c
/-- STAGE. -/
def State.stage (s : State) : Nat := s.f F.MGT_STATUS_STAGE
/-- STAGE changes. -/
def State.setStage (s : State) (v : Nat) : State := s.setF F.MGT_STATUS_STAGE v

/-- The start is a fall-back: FALLBACK and MGT_FALLBACK (R346). -/
def State.fellBack (s : State) : State := (s.setF F.MGT_STATUS_FALLBACK 1).raise 3

/-- The image runs in Proof from here: PROOF, its condition, and the watchdog's window (R343). -/
def State.proofStart (s : State) : State :=
  let s1 := (s.setF F.MGT_STATUS_PROOF 1).cond 4 true
  let s2 := s1.setF F.MGT_PROOF_REMAIN_S (s1.f F.MGT_PROOF_WINDOW_S)
  { s2 with boot := { s2.boot with watchdog := true } }

/-- The image slot that will run. -/
def State.runSlot (s : State) (k : Nat) : State :=
  ({ s with boot := { s.boot with slot := k } }).setF F.MGT_STATUS_SLOT k

/-- The device is not in Proof any more: PROOF, its condition, what is left of the window and the watchdog clear. -/
def State.proofEnd (s : State) : State :=
  let s1 := ((s.setF F.MGT_STATUS_PROOF 0).setF F.MGT_PROOF_REMAIN_S 0).cond 4 false
  { s1 with boot := { s1.boot with watchdog := false } }

/-- No slot boots: mcore0 stays in its boot ROM, with the CORE group in reset. Nothing runs in Proof there, so the ROM takes
an update (R335, R341). -/
def State.bootHalt (s : State) : State :=
  let s1 := s.proofEnd.setStage 6
  if s1.core then s1.requestCore (some .boot)
  else if s1.grp.holds.contains .boot then s1
  else { s1 with grp := { s1.grp with holds := s1.grp.holds ++ [.boot] } }

/-- A slot that failed gives way to the other one, which runs in Imprint when it passes R332; else the ROM halts. -/
def State.otherSlot (s : State) (k code : Nat) : State :=
  let s1 := s.bootErr code
  let o := 1 - k
  if s1.slotCheck o = 0 then
    ((s1.writeRec { s1.boot.running with active := o, proof := false, prev := none, attempt := 0 }).runSlot o).fellBack.proofEnd
  else s1.bootHalt

/-- The boot ROM reads the boot records and chooses the image. -/
def State.chooseImage (s : State) : State :=
  let r := match s.curRec with | some x => x.1 | none => defaultRec
  let s0 := { s with boot := { s.boot with running := r } }
  let s1 :=
    if !r.proof then s0.runSlot r.active
    else if r.attempt = 0 then ((s0.writeRec { r with attempt := 1 }).runSlot r.active).proofStart
    else
      let a := r.prev.getD (1 - r.active)
      ((s0.writeRec { r with active := a, proof := false, prev := none, attempt := 0,
                             storeActive := r.storePrev }).runSlot a).fellBack
  let k := s1.boot.slot
  let c := s1.slotPre k
  if c = 0 then s1 else s1.otherSlot k c

/-- Meaning of PLL_LOCK: the ROM checks the references and PLLs; with all of them the boot records choose the image and
the CORE group is let go; a missing one stops start-up with error 0x10 (R33, Table 14-6). -/
def execPllLock (locked : Bool) (s : State) : Ans :=
  s.onMgmt fun s =>
    if s.stage = 1 ∧ s.grp.holds.contains .boot then
      if !locked ∨ !s.grp.refLost.isEmpty then s.bootErr 0x10
      else
        let s1 := (s.setStage 2).chooseImage
        if s1.stage = 6 then s1
        else { s1 with grp := { s1.grp with holds := s1.grp.holds.filter (· != .boot) } }
    else s

/-! ### Fuses (R333) -/

/-- The fuse steps of an Imprint: the security version rises to the image's, and the slots its REVOKE names are revoked
but for its own. A step that fails is owed to the next start. -/
def State.burnFuses (s : State) (svn : Nat) (revoke : List Nat) (ok : Bool) : State :=
  if !ok then ({ s with boot := { s.boot with fuseOwed := some (svn, revoke) } }.bootErr 0x0E).raise 1
  else
    let f := s.boot.fuses
    let rv := revoke.foldl (fun l k => if l.contains k then l else l ++ [k]) f.revoked
    let s1 := { s with boot := { s.boot with fuseOwed := none
                                             fuses := { f with svn := Nat.max f.svn svn, revoked := rv } } }
    (s1.setF F.MGT_SECURITY_FUSED_SVN (Nat.max f.svn svn)).setF F.MGT_SECURITY_KEYS_REVOKED
      ((List.range 4).foldl (fun a k => if rv.contains k then a + 2 ^ k else a) 0)

/-! ### The working copy and what is loaded from it (R332, R336, R337) -/

/-- Write bytes of the management region, which clears their poison (R234). -/
def State.mgmtWrite (s : State) (la : Nat) (b : List Byte) : State :=
  { s with hbm := { s.hbm with
    mgmt := b.zipIdx.foldl (fun m (x : Byte × Nat) => msetD m (la + x.2) 0 x.1) s.hbm.mgmt } }.hbmWritten la b.length

/-- Bytes of the management region from an offset, up to the region's end. -/
def State.regionPut (s : State) (a : Nat) (b : List Byte) : State := s.mgmtWrite a (b.take (0x80000000 - a))

/-- Bytes of management SRAM. -/
def State.sramPut (s : State) (a : Nat) (b : List Byte) : State :=
  { s with hst := { s.hst with sram := (b.zipIdx).foldl (fun m (x : Byte × Nat) => mset m (a + x.2) x.1) s.hst.sram } }

/-- The image in a slot is streamed into its working copy. -/
def State.streamImage (s : State) (k : Nat) : State :=
  s.regionPut (Config.workingCopy % (0x80000000 - slotSize)) (s.flashRead (slotBase k) (hdrLen (s.fileHdr (slotBase k))))

/-- A section of the working copy is loaded at its TARGET (Table 14-4): the runtime of mcore0 in management SRAM, tables of
the resident services in the management region, mcore1 to mcore3 in either; PHY firmware goes to no memory the spec describes. -/
def State.loadSect (s : State) (k : Nat) (x : Sect) : State :=
  let b := s.flashRead (slotBase k + x.off) x.size
  match x.type with
  | 1 => s.sramPut x.target b
  | 5 => s
  | 6 => s.regionPut x.target b
  | t => if Config.sectInHbm t x.flags x.target then s.regionPut x.target b else s.sramPut x.target b

/-- Every section is loaded afresh: management SRAM keeps nothing of a previous run (R337). -/
def State.loadSects (s : State) (k : Nat) : State :=
  (hdrSects (s.fileHdr (slotBase k))).foldl (fun t x => t.loadSect k x) { s with hst := { s.hst with sram := [] } }

/-- Meaning of IMAGE_DIGEST_DONE: the image is in its working copy. On a match mcore0 runs it and loads the other cores;
else the other slot is tried. `fuseOk` is what a repeated fuse step comes to. With TEST_MODE high the device stays in its
boot ROM (R332, R336, R408). -/
def execImageDigestDone (fuseOk : Bool) (s : State) : Ans :=
  s.onMgmt fun s =>
    if s.stage = 2 ∧ s.core ∧ s.fb F.HBM_STATUS_READY ∧ !s.grp.testMode then
      let k := s.boot.slot
      let s := s.streamImage k
      if s.digestOk (slotBase k) then
        let c := s.fileCol (slotBase k)
        let n := fun i => beNat (slice c i 1)
        let s1 := ((((s.loadSects k).setF F.MGT_IMAGE_VERSION (beNat (slice c 8 4))).setF F.MGT_SECURITY_IMAGE_SVN (n 6)).setF
          F.MGT_SECURITY_KEY_SLOT (n 5)).setStage 3
        let s2 := { s1 with boot := { s1.boot with
          fmtMin := n 12, fmtMax := n 13, imageVer := n 7, revoke := n 15, imageRun := true, triedStore := [] } }
        match s2.boot.fuseOwed with
        | some (v, rv) => s2.burnFuses v rv fuseOk
        | none => s2
      else s.otherSlot k 0x02
    else s

/-! ### Proof and Imprint (R343 to R346) -/

/-- The conditions of R344 that hold now; the cores answer mcore0's watchdog as the arrival of HEALTH_CONFIRMED says. -/
def State.healthy (s : State) : Bool :=
  s.stage == 4 && s.fb F.HBM_STATUS_READY && s.fb F.BUF_STATUS_CFG_DONE && s.fb F.XMT_STATUS_CLEAR_DONE &&
  s.fb F.TRN_STATUS_CLEAR_DONE && !s.boot.loadRefused &&
  (!s.doublet || (s.twinUp && s.fb F.RED_STATUS_SYNCED)) && (!s.fb F.MGT_STATUS_CONFIRM_REQ || s.boot.confirm)

/-- One store copy's bytes over the other's. -/
def State.copyStore (s : State) (src dst : Nat) : State :=
  let n := hdrLen (s.fileHdr (storeBase src))
  (s.flashErase (storeBase dst) storeSize).flashPut (storeBase dst) (s.flashRead (storeBase src) n)

/-- Imprint (R345): the record, the fuses, the copy of a delivered store, PROOF and the event. -/
def State.imprint (s : State) (fuseOk : Bool) : State :=
  let r := s.boot.running
  let s1 := s.writeRec { r with proof := false, prev := none, attempt := 0 }
  let s2 := { s1 with boot := { s1.boot with watchdog := false, confirm := false } }
  let key := s2.f F.MGT_SECURITY_KEY_SLOT
  let rv := (List.range 4).filter fun k => bit s2.boot.revoke k && k != key
  let s3 := s2.burnFuses (s2.f F.MGT_SECURITY_IMAGE_SVN) rv fuseOk
  let s4 := if r.storeActive ≠ r.storePrev then s3.copyStore r.storeActive r.storePrev else s3
  (((s4.setF F.MGT_STATUS_PROOF 0).setF F.MGT_PROOF_REMAIN_S 0).cond 4 false).raise 2

/-- Meaning of HEALTH_CONFIRMED: every condition has held for CONFIRM_S before the watchdog expired. -/
def execHealthConfirmed (fuseOk : Bool) (s : State) : Ans :=
  s.onMgmt fun s =>
    if s.fb F.MGT_STATUS_PROOF ∧ s.boot.watchdog ∧ s.healthy then s.imprint fuseOk else s

/-- Meaning of PROOF_WATCHDOG_EXPIRY: the window has passed without confirmation, and the device takes a PKG reset. -/
def execProofWatchdogExpiry (s : State) : Ans :=
  s.onMgmt fun s => if s.fb F.MGT_STATUS_PROOF ∧ s.boot.watchdog then s.fallbackReset else s

/-! ### Update (R340 to R342) -/

/-- MGT_UPDATE.STATE. -/
def State.updState (s : State) : Nat := s.f F.MGT_UPDATE_STATE

/-- Where the update in progress goes: the slot that is not ACTIVE, or the store copy STORE_ACTIVE does not name. -/
def State.updBase (s : State) (kind : Nat) : Nat :=
  if kind = 1 then slotBase (1 - s.boot.running.active) else storeBase (1 - s.boot.running.storeActive)

/-- Show the blocks received and the lowest missing one. -/
def State.updShow (s : State) : State :=
  let u := s.boot.upd
  let n := u.length / 4096
  let miss := (List.range n).find? fun i => !u.blocks.contains i
  ((s.setF F.MGT_UPDATE_BLOCKS u.blocks.length).setF F.MGT_UPDATE_MISS_ALL (b2n (miss.isNone && u.length != 0))).setF
    F.MGT_UPDATE_MISS_MISSING (miss.getD 0)

/-- The update fails: STATE FAILED with ERR. -/
def State.updFail (s : State) (code : Nat) : State := (s.setF F.MGT_UPDATE_STATE 6).setF F.MGT_UPDATE_ERR code

/-- BEGIN: its error code, 0 where it opens the update and erases the target's first block. -/
def State.updBegin (s : State) (kind len : Nat) : Nat × State :=
  if s.fb F.MGT_STATUS_PROOF then (0x0F, s)
  else if kind ≠ 1 ∧ kind ≠ 2 then (0x01, s)
  else if len % 4096 ≠ 0 ∨ len < 8192 ∨ (if kind = 1 then slotSize else storeSize) < len then (0x0D, s)
  else
    let u := s.boot.upd
    let u1 : Update := { kind := kind, length := len, target := s.updBase kind, blocks := [], lastBlock := []
                         imageOk := u.imageOk && kind != 1, storeOk := u.storeOk && kind != 2 }
    let s1 := { s with boot := { s.boot with upd := u1 } }
    (0, ((s1.flashErase u1.target 0x10000).setF F.MGT_UPDATE_STATE kind).updShow)

/-- The check of a BLOCK's offset. -/
def State.updBlockCode (s : State) (off : Nat) : Nat :=
  let u := s.boot.upd
  if (s.updState ≠ 1 ∧ s.updState ≠ 2) ∨ off % 4096 ≠ 0 ∨ u.length ≤ off ∨ u.blocks.contains (off / 4096) then 0x0D else 0

/-- A BLOCK at an offset is the first of a 64 KiB flash block that BEGIN did not erase. -/
def State.updErases (s : State) (off : Nat) : Bool :=
  off / 0x10000 != 0 && s.boot.upd.blocks.all fun b => b * 4096 / 0x10000 != off / 0x10000

/-- A BLOCK is a store's last, which is held in management SRAM and not programmed (R340). -/
def State.updHeld (s : State) (off : Nat) : Bool := s.boot.upd.kind == 2 && off + 4096 == s.boot.upd.length

/-- A BLOCK that the flash reports done. The first block in a 64 KiB flash block erases it, but for the one BEGIN erased;
a store's last block stays in management SRAM. -/
def State.updBlock (s : State) (off : Nat) (data : List Byte) : State :=
  let u := s.boot.upd
  let s1 := if s.updErases off then s.flashErase (u.target + off / 0x10000 * 0x10000) 0x10000 else s
  let held := s.updHeld off
  let s2 := if held then s1 else s1.flashPut (u.target + off) data
  { s2 with boot := { s2.boot with upd := { u with
      blocks := u.blocks ++ [off / 4096], lastBlock := if held then data else u.lastBlock } } }.updShow

/-- The store as received: the header in flash, and the Colophon held in management SRAM, checked against R329, R331 and
its digest. -/
def State.updStoreCode (s : State) : Nat :=
  let u := s.boot.upd
  let h := s.fileHdr u.target
  if !(headerOk h false && hdrLen h == u.length && storeColOk h (splice u.lastBlock 96 (List.replicate 32 0))) then 0x01
  else if shake (s.flashRead u.target (u.length - 4096)) 64 ≠ slice u.lastBlock 32 64 then 0x02
  else 0

/-- The check of END: the code of the first failure. -/
def State.updEndCode (s : State) : Nat :=
  let u := s.boot.upd
  if s.updState ≠ 1 ∧ s.updState ≠ 2 then 0x0D
  else if (List.range (u.length / 4096)).any fun i => !u.blocks.contains i then 0x0C
  else if u.kind = 1 then
    if hdrLen (s.fileHdr u.target) ≠ u.length then 0x01 else s.slotCheck (1 - s.boot.running.active)
  else s.updStoreCode

/-- STATE after a good END. -/
def State.updGood (s : State) : State :=
  let u := s.boot.upd
  let u1 := { u with imageOk := u.imageOk || u.kind == 1, storeOk := u.storeOk || u.kind == 2 }
  ({ s with boot := { s.boot with upd := u1 } }).setF F.MGT_UPDATE_STATE
    (if u1.imageOk && u1.storeOk then 5 else if u1.imageOk then 3 else 4)

/-- The Colophon of the received store with its SEAL. -/
def State.updSealed (s : State) : List Byte :=
  let c := s.boot.upd.lastBlock
  splice c 96 (s.storeSeal c)

/-- An update is CHECKED. -/
def State.updChecked (s : State) : Bool := s.updState == 3 || s.updState == 4 || s.updState == 5

/-- START goes to the other image slot: to the delivered image, or, with no update CHECKED, to the previous image (R345). -/
def State.newSlot (s : State) : Bool := if s.updChecked then s.boot.upd.imageOk else true

/-- A store was delivered for START. -/
def State.newStore (s : State) : Bool := s.updChecked && s.boot.upd.storeOk

/-- The store copy that runs (STORE_COPY); the one STORE_ACTIVE names where none runs. -/
def State.runStore (s : State) : Nat :=
  if s.stage = 4 ∨ (s.stage = 3 ∧ s.boot.applyWait) then s.f F.MGT_STATUS_STORE_COPY else s.boot.running.storeActive

/-- The store formats that the image START goes to accepts. -/
def State.newFormats (s : State) : Nat × Nat :=
  if s.newSlot then
    let c := s.fileCol (slotBase (1 - s.boot.running.active))
    (beNat (slice c 12 1), beNat (slice c 13 1))
  else (s.boot.fmtMin, s.boot.fmtMax)

/-- A store copy qualifies for the image that START goes to: 0, or why the one STORE_ACTIVE names does not. -/
def State.startStore (s : State) : Nat :=
  let f := s.newFormats
  let a := s.storeCheck s.boot.running.storeActive f.1 f.2
  if a = 0 ∨ s.storeCheck (1 - s.boot.running.storeActive) f.1 f.2 = 0 then 0 else a

/-- The check of START (R341): a code, 0 where it may go. A store alone must have a FORMAT that the running image takes; an
image alone needs a store copy that qualifies for it. With no update CHECKED it may go to the previous image, outside Proof,
while that passes R332 and a store qualifies for it (R345). -/
def State.updStartCode (s : State) : Nat :=
  let f := s.newFormats
  if !s.updChecked then
    if !s.fb F.MGT_STATUS_PROOF && !s.boot.running.proof && s.slotCheck (1 - s.boot.running.active) = 0 && s.startStore = 0 then 0
    else 0x0D
  else if s.newSlot && s.newStore then 0
  else if s.newStore then
    let fmt := beNat (slice (s.fileHdr (storeBase (1 - s.boot.running.storeActive))) 5 1)
    if fmt < f.1 ∨ f.2 < fmt then 0x0A else 0
  else s.startStore

/-- START's boot record (R342). -/
def State.updRecord (s : State) : State :=
  let r := s.boot.running
  s.writeRec { r with
    proof := true, attempt := 0, active := if s.newSlot then 1 - r.active else r.active, prev := some r.active
    storeActive := if s.newStore then 1 - r.storeActive else s.runStore, storePrev := s.runStore }

/-- START has written its record: it is a Proof record that no start was made from yet. -/
def State.started (s : State) : Bool := s.boot.running.proof && s.boot.running.attempt == 0

/-! ### Reset requests (R40, R302, R342, R363) -/

/-- The MGT management and core reset requests together: the flush of R392 comes first where the CORE group is up. -/
def State.requestMgmt (s : State) : State :=
  if s.core then { s.requestCore none with grp := { (s.requestCore none).grp with flushMgmt := true } }
  else s.enterCore.clearMgmt.restartRom

/-- The effect of MGT_CTRL.CORE_RESET: a group held after a fatal fault or a halt is let go, an idle request resets it. A
release clears HALTED and EN of every work queue (R302, R363). -/
def State.coreReset (s : State) : State :=
  if s.grp.holds.contains .fatal ∨ s.grp.holds.contains .halt then
    { s with grp := { s.grp with holds := s.grp.holds.filter fun h => h != Hold.fatal && h != Hold.halt } }.setF F.RED_FATAL_HELD 0
  else s.requestCore none

/-- The effect of a write of MGT_CTRL, by its bits: CONFIRM, REJECT, MGMT_RESET, CORE_RESET; "applied in order" (R347). -/
def State.mgtWrite (s : State) (v : Nat) : State :=
  let s1 := if bit v 30 then { s with boot := { s.boot with confirm := true } } else s
  if bit v 29 && s1.fb F.MGT_STATUS_PROOF then s1.fallbackReset
  else if bit v 28 then s1.requestMgmt
  else if bit v 27 then s1.coreReset
  else s1

/-- Meaning of RESET_FLUSH_DONE: every accumulator is flushed and the frames inside are counted; then the CORE group enters
reset, and with the management request the MGMT group resets and its ROM starts (R392, R342). -/
def execResetFlushDone (s : State) : Ans :=
  s.onMgmt fun s =>
    if s.grp.flush ∧ s.core then
      let n := s.insidePicas.length
      let s1 := s.flushAll
      let s2 := { s1 with cnt := { s1.cnt with inside := n } }.enterCore
      if s.grp.flushMgmt then s2.clearMgmt.restartRom else s2.unsecureAll
    else s

/-- The end of a halt at a release: HALTED and EN of every work queue clear (R363). -/
def State.haltEnd (s : State) : State :=
  if s.fb F.HST_STATUS_HALTED then
    let s1 := ((s.setF F.HST_STATUS_HALTED 0).clearEn F.HST_WQ_CFG_EN 64).clearEn F.HST_WQ_STATUS_ENABLED 64
    { s1 with hst := { s1.hst with wq := [] } }
  else s

/-- The frames inside at the last reset count under RST_DISCARD, without bytes (R392). -/
def State.discardCount (s : State) : State :=
  if s.cnt.inside = 0 then s
  else
    let s1 := s.post spReason 0xC0 [s.cnt.inside, 0]
    { s1 with cnt := { s1.cnt with inside := 0 } }

/-- The CORE group leaves reset: RESET_EPOCH advances, CFG_LOCK clears, and mcore0 loads the store when its image runs. -/
def State.coreRelease (s : State) : State :=
  let s0 := { s with grp := { s.grp with coreUp := true } }
  let s1 := ((s0.sat F.TIM_STATUS_RESET_EPOCH 1).setF F.MGT_CTRL_CFG_LOCK 0).haltEnd.discardCount
  if s1.boot.imageRun then ({ s1 with boot := { s1.boot with applyWait := false } }).setStage 3 else s1

/-- Meaning of CORE_RESET_RELEASE: with no hold left the CORE group leaves reset, its picas starting at 0 (R29, R41, R363,
R392). -/
def execCoreResetRelease (s : State) : Ans :=
  s.onMgmt fun s => if s.core || !s.grp.holds.isEmpty || s.grp.sysRstLow || s.grp.porstLow then s else s.coreRelease

/-! ### Reset balls, references and the test port (R40, R408, R410, R416, R419) -/

/-- A reset ball's low pulse counts: shorter than 100 ns is ignored (R410). -/
def pulseOk (ns : Nat) : Bool := decide (100 ≤ ns)

/-- The test access port holds the balls: an instruction other than BYPASS and IDCODE is loaded, which takes them only while
PORST_N is low and acts as BYPASS while it is high (R419). -/
def State.jtagHoldsBalls (s : State) : Bool :=
  s.grp.porstLow && s.grp.jtag != .bypass && s.grp.jtag != .idcode

/-- The outputs of the device in reset (R408), but for the flash's reset. -/
def State.resetPins (s : State) : State :=
  (((s.emit (.pin .arbFault true)).emit (.pin .arbHealth false)).emit (.pin .ppsOut false)).emit (.pin .todTx false)

/-- Meaning of PORST_N_LOW: the package resets and drives its outputs as R408 says, unless the test access port takes the
balls (R419). -/
def execPorstNLow (ns : Nat) (s : State) : Ans :=
  let s := s.begin
  if pulseOk ns then
    let s1 := s.clearPkg
    let s2 := { s1 with grp := { sysRstLow := s.grp.sysRstLow, perstLow := s.grp.perstLow, refLost := s.grp.refLost,
                                 jtag := s.grp.jtag, trst := s.grp.trst } }
    .next (if s2.jtagHoldsBalls then s2.emit (.scanBalls true) else s2.resetPins.emit (.pin .xspiReset false))
  else .next s

/-- Meaning of PORST_N_RELEASE: fuses are sensed and the boot ROM starts with the CORE group held; PCIe link training
starts where PERST_N is released; the flash's reset ends (Table 17-4). Balls that the test access port held are the device's
again (R419). -/
def execPorstNRelease (testMode : Bool) (s : State) : Ans :=
  let s := s.begin
  if s.grp.porstLow then
    let up := !s.grp.perstLow
    let s0 := if s.jtagHoldsBalls then (s.emit (.scanBalls false)).resetPins else s
    let s1 := { s0 with grp := { s0.grp with porstLow := false, hostUp := up, linkUp := false, testMode := testMode } }.emit
      (.pin .xspiReset true)
    .next (if s1.grp.sysRstLow then s1 else s1.startRom)
  else .next s

/-- Meaning of SYS_RST_N_LOW: the CORE and MGMT groups reset at once, without a flush (R40, R392). While PORST_N is low they
are in reset already, and stay so beyond its release while SYS_RST_N is low (R410). -/
def execSysRstNLow (ns : Nat) (s : State) : Ans :=
  let s := s.begin
  if pulseOk ns && s.grp.porstLow then .next { s with grp := { s.grp with sysRstLow := true } }
  else if pulseOk ns then
    let s1 := s.enterCore.clearMgmt
    .next { s1 with
      cnt := { s1.cnt with inside := 0 }
      grp := { s1.grp with sysRstLow := true, mgmtUp := false, flush := false, flushMgmt := false
                           holds := if s.fatalHeld && s.fb F.RED_FATAL_HELD then [.sysRst, .fatal] else [.sysRst] } }
  else .next s

/-- Meaning of SYS_RST_N_RELEASE: the boot ROM starts again. -/
def execSysRstNRelease (s : State) : Ans :=
  let s := s.begin
  if s.grp.sysRstLow then
    let s1 := { s with grp := { s.grp with sysRstLow := false } }
    .next (if s1.grp.porstLow then s1 else s1.restartRom)
  else .next s

/-- Meaning of PERST_N_LOW: the HOST group resets with the effects of R350, its configuration space and link too. -/
def execPerstNLow (ns : Nat) (s : State) : Ans :=
  let s := s.begin
  if pulseOk ns then
    let s1 := if s.grp.hostUp then s.hostEffects else s
    .next { s1 with grp := { s1.grp with perstLow := true, hostUp := false, linkUp := false, training := false } }
  else .next s

/-- Meaning of PERST_N_RELEASE: link training starts, once step 1 of start-up has ended (R410). -/
def execPerstNRelease (s : State) : Ans :=
  let s := s.begin
  if s.grp.perstLow then
    .next { s with grp := { s.grp with perstLow := false, hostUp := !s.grp.porstLow
                                       training := !s.grp.porstLow && s.grp.mgmtUp } }
  else .next s

/-- Meaning of PCIE_LINK_UP: link training completes. -/
def execPcieLinkUp (s : State) : Ans :=
  let s := s.begin
  if s.grp.hostUp && s.grp.training then .next { s with grp := { s.grp with linkUp := true, training := false } }
  else .next s

/-- Meaning of PCIE_HOT_RESET: a hot reset or a lost link resets the HOST group; the link trains again (R40, R350). -/
def execPcieHotReset (s : State) : Ans :=
  let s := s.begin
  if s.grp.hostUp && s.grp.linkUp then
    let s1 := s.hostEffects
    .next { s1 with grp := { s1.grp with linkUp := false, training := true } }
  else .next s

/-- Meaning of FUNCTION_LEVEL_RESET (R350): the link stays up, so a transfer in progress ends with its STATUS written (R374,
Table 15-14). -/
def execFunctionLevelReset (s : State) : Ans :=
  let s := s.begin
  if s.grp.hostUp && s.grp.linkUp then .next (s.hostEffects true) else .next s

/-- A fabric or twin-link lane that loses lock with its reference counts toward retirement (R416): some codewords were
uncorrectable, and no rule says how many (log entry 103). -/
def State.lostWords (s : State) (locked : Bool) (count : State → Nat → State) : State :=
  if locked then
    let x := s.fresh
    count x.2 (1 + x.1.toNat % 65536)
  else s

/-- The lanes a reference clocks lose lock: line ports raise LOL, fabric and twin-link lanes count toward retirement and go
(R416). -/
def State.lanesLost (s : State) (r : Ref) : State :=
  let ports := fun (lo : Nat) => (List.range 64).foldl (fun (u : State) i =>
    let p := lo + i
    if u.portEn p then
      let u1 := { u with lne := { u.lne with align := mfilter (fun k _ => k / 32 != p) u.lne.align } }
      (u1.alignStatus p).setRaws p (putBit (putBit (u.raw p) F.DEFECT_LOL true) F.DEFECT_LOA true)
    else u) s
  let fabs := fun (lo : Nat) (v : State) =>
    let v1 := (List.range 80).foldl (fun (u : State) i => u.lostWords (u.fabLive (lo + i)) (·.fabUncorr (lo + i))) v
    (List.range 80).foldl (fun (u : State) i => u.fabShow (lo + i))
      { v1 with fab := { v1.fab with align := mfilter (fun k _ => decide (k < lo) || decide (lo + 80 ≤ k)) v1.fab.align } }
  match r with
  | .lineA => ports 0
  | .lineB => ports 64
  | .fabA => fabs 0 s
  | .fabB =>
    let v1 := (List.range 2).foldl (fun (u : State) l => u.lostWords (u.doublet && u.twinLive l) (·.twinUncorr l)) s
    let v := { v1 with twin := { v1.twin with align := [] } }
    (fabs 80 v).twinShow 0 |>.twinShow 1

/-- Meaning of REFERENCE_CLOCK_LOSS: a line or fabric reference stops and its PLL unlocks; the device runs on (R416). -/
def execReferenceClockLoss (ref : Ref) (s : State) : Ans :=
  let s := s.begin
  if s.grp.refLost.contains ref then .next s
  else
    let s1 := { s with grp := { s.grp with refLost := s.grp.refLost ++ [ref] } }
    .next (if s1.coreLive then s1.lanesLost ref else s1)

/-- Meaning of REFERENCE_CLOCK_RETURN: the reference runs again and its PLL relocks; the lanes align anew. -/
def execReferenceClockReturn (ref : Ref) (s : State) : Ans :=
  let s := s.begin
  .next { s with grp := { s.grp with refLost := s.grp.refLost.filter (· != ref) } }

/-- The IDCODE of the test access port (R419). -/
def idcode : W32 := 0x10256B4F

/-- The instruction that the port holds after it was given one: TRST_N low resets it to IDCODE, and an opcode that is none of
the supported ones acts as BYPASS (R419, IEEE 1149.1). -/
def jtagLoaded (i : Jtag) : Jtag := match i with | .trst => .idcode | .other => .bypass | x => x

/-- Meaning of JTAG_INSTRUCTION: the port loads an instruction, with TRST_N high, or TRST_N goes low and resets it. IDCODE
shifts the identification out; the balls are taken or given back as R419 says. -/
def execJtagInstruction (instr : Jtag) (s : State) : Ans :=
  let s := s.begin
  let s1 := { s with grp := { s.grp with jtag := jtagLoaded instr, trst := instr == .trst } }
  let s2 := if instr = .idcode then s1.emit (.jtagId idcode) else s1
  .next (if s2.jtagHoldsBalls = s.jtagHoldsBalls then s2 else s2.emit (.scanBalls s2.jtagHoldsBalls))

/-- SMB_ALERT_N is asserted: an enabled event of group 0 is pending (Table 17-4). -/
def State.smbAlert (s : State) : Bool := s.evtSummary % 2 == 1

/-- Meaning of RAIL_OUT_OF_TOLERANCE: while PORST_N is high, behaviour is undefined until its next pulse; while it is low the
device stays in reset (R413). -/
def execRailOutOfTolerance (s : State) : Ans := if s.grp.porstLow then .next s.begin else .fault .railOutOfTolerance

end Sys2Proof.Machine
end

