-- ==== Sys2Proof/Machine/Host.lean ====
section
/-! DEFINITION. Sessions, the BAR2 window and the SMBus address (R350, R353 to R357, R377). -/
namespace Sys2Proof.Machine

/-! ### Sessions (R353 to R357) -/

/-- The session of a path; firmware on the management cores needs none. -/
def State.sess (s : State) (p : Path) : Session :=
  match p with | .pcie => s.hst.pcie | .smbus => s.hst.smbus | .fw => { state := 3 }

/-- Replace a path's session. -/
def State.setSess (s : State) (p : Path) (x : Session) : State :=
  match p with
  | .pcie => { s with hst := { s.hst with pcie := x } }
  | .smbus => { s with hst := { s.hst with smbus := x } }
  | .fw => s

/-- The level of a session: 0 none, 1 operator, 2 administrator. -/
def Session.level (x : Session) : Nat := if x.state = 2 then 1 else if x.state = 3 then 2 else 0

/-- A path's level at this moment. -/
def State.level (s : State) (p : Path) : Nat := (s.sess p).level

/-- A path's session closes (R357); the PCIe one takes ADMIN of every DMA channel with it (R372). -/
def State.closeSess (s : State) (p : Path) : State :=
  match p with | .pcie => s.closePcie | .smbus => s.closeSmbus | .fw => s

/-- The path is there to be used: PCIe with its link up, SMBus and firmware while the management complex runs. -/
def State.pathUp (s : State) (p : Path) : Bool :=
  s.mgmt && (match p with | .pcie => s.grp.hostUp && s.grp.linkUp | _ => true)

/-- The eight bytes of HST_SERIAL, most significant first. -/
def State.serialBytes (s : State) : List Byte := beBytes 8 (s.rd .HST_SERIAL 0 0 0).toNat

/-- The factory key (R354). -/
def State.factoryKey (s : State) : List Byte := kmac s.wrapKey s.serialBytes "GKP256 factory session"

/-- The key of a level (1 administrator), when one is held (R354). -/
def State.levelKey (s : State) (level : Nat) : Option (List Byte) :=
  if level = 1 then some (s.boot.keyring.admin.getD s.factoryKey) else s.boot.keyring.oper

/-- A failure (R356): the session closes, FAILS counts, and OPEN is refused for 1 s, or 60 s from 8 failures on. -/
def State.sessFail (s : State) (p : Path) : State :=
  let n := Nat.min 255 ((s.sess p).fails + 1)
  (s.closeSess p).setSess p { state := 4, fails := n, lockS := if 8 ≤ n then 60 else 1 }

/-- OPEN: a session already open on the path closes, and a challenge is issued unless OPEN is refused (R355, R356). -/
def State.sessOpen (s : State) (p : Path) (level : Nat) : State :=
  let x := s.sess p
  if x.state = 4 then s
  else
    let s1 := s.closeSess p
    let dn := fit 32 (Config.freeBytes s1.free 32)
    let s2 := { s1 with free := s1.free + 1 }
    s2.setSess p { state := 1, asked := level, dn := dn, hn := fit 32 (ofW32s x.data), fails := x.fails, data := toW32s dn }

/-- The response that opens a session (Table 15-5). -/
def State.sessAnswer (s : State) (x : Session) (key : List Byte) : List Byte :=
  kmac key (x.dn ++ x.hn ++ s.serialBytes ++ [BitVec.ofNat 8 x.asked]) "GKP256 session"

/-- RESPOND: a matching response opens the session at its level and answers with the device's own proof; any other fails. -/
def State.sessRespond (s : State) (p : Path) : State :=
  let x := s.sess p
  if x.state ≠ 1 then s.sessFail p
  else
    match s.levelKey x.asked with
    | none => s.sessFail p
    | some key =>
      if ofW32s x.data = s.sessAnswer x key then
        s.setSess p { x with state := 2 + x.asked, fails := 0, lockS := 0, key := key
                             data := toW32s (kmac key (x.hn ++ x.dn) "GKP256 device") }
      else s.sessFail p

/-- The effect of a write of HST_SESS_CMD; other OP values are ignored. -/
def State.sessCmd (s : State) (p : Path) (v : W64) : State :=
  match F.HST_SESS_CMD_OP.of v with
  | 1 => s.sessOpen p (F.HST_SESS_CMD_LEVEL.of v)
  | 2 => s.sessRespond p
  | 3 => s.closeSess p
  | _ => s

/-- Meaning of CHALLENGE_TIMEOUT: a challenge has had no RESPOND for 10 s. -/
def execChallengeTimeout (path : Path) (s : State) : Ans :=
  s.onMgmt fun s => if path ≠ .fw ∧ (s.sess path).state = 1 then s.sessFail path else s

/-- Meaning of SESSION_LOCK_EXPIRY: the refusal of a locked path ends. -/
def execSessionLockExpiry (path : Path) (s : State) : Ans :=
  s.onMgmt fun s =>
    if path ≠ .fw ∧ (s.sess path).state = 4 then s.setSess path { s.sess path with state := 0, lockS := 0 } else s

/-- The word HST_SESS_STATUS shows a path. -/
def Session.status (x : Session) : Nat := x.state * 2 ^ 29 + x.fails * 2 ^ 16 + x.lockS

/-- An access the levels do not allow: DENIED sets and HST_DENIED is raised (R353). -/
def State.denied (s : State) : State := (s.setF F.HST_STATUS_DENIED 1).raise 32

/-- ACCESS_ERR sets. -/
def State.accessErr (s : State) : State := s.setF F.HST_STATUS_ACCESS_ERR 1

/-! ### HBM as 64-bit words (Table 10-2) -/

/-- Word w of an SA entry, with its key reading zero (Table 4-4, R86). -/
def SaEntry.word (e : SaEntry) (w : Nat) : Nat :=
  match w with
  | 0 => b2n e.valid * 2 ^ 63 + e.type * 2 ^ 60 + b2n e.ext * 2 ^ 59 + b2n e.pin * 2 ^ 58 + b2n e.tunnel * 2 ^ 57 +
         b2n e.ipv6 * 2 ^ 56 + e.an * 2 ^ 53 + e.id32
  | 1 => e.nextPn
  | 2 => e.limit
  | 3 => b2n e.nextValid * 2 ^ 63 + e.nextSa * 2 ^ 32 + e.replayWin
  | 4 => e.salt / 2 ^ 32
  | 5 => e.salt % 2 ^ 32 * 2 ^ 32
  | 6 => e.sci
  | _ => if 16 ≤ w then e.window / 2 ^ (64 * (31 - w)) % 2 ^ 64
         else if 12 ≤ w then e.tunDst / 2 ^ (32 * (15 - w)) % 2 ^ 32 else 0

/-- The SA entry that words 0 to 15 spell, with a key and a salt put in (Table 4-4); TUN_DST stands in bits [31:0] of words
12 to 15 (log entry 86). -/
def saOfWords (g : Nat → Nat) (key : List Byte) (salt : Nat) : SaEntry :=
  SaEntry.reserve
    { valid := bit (g 0) 63, type := bits (g 0) 62 60, ext := bit (g 0) 59, pin := bit (g 0) 58, tunnel := bit (g 0) 57
      ipv6 := bit (g 0) 56, an := bits (g 0) 54 53, id32 := bits (g 0) 31 0, nextPn := g 1, limit := g 2
      nextValid := bit (g 3) 63, nextSa := bits (g 3) 49 32, replayWin := bits (g 3) 10 0, salt := salt, sci := g 6
      key := key, window := 0
      tunDst := (List.range 4).foldl (fun a i => a * 2 ^ 32 + g (12 + i) % 2 ^ 32) 0 }

/-- The 64-bit word of HBM at an aligned LA below the spill region; reserved ranges read zero (R226). -/
def State.hbmWord (s : State) (la : Nat) : Nat :=
  if la < 0x80000000 then leNat ((List.range 8).map fun i => mgetD s.hbm.mgmt (la + i) 0)
  else if la < 0xA0000000 then
    match mget s.exm.ent (2 ^ 25 + (la - 0x80000000) / 32) with
    | some e => xRow true e (la % 32 / 8)
    | none => 0
  else if la < 0xA4000000 then (mgetD s.cry.sa ((la - 0xA0000000) / 256) {}).word (la % 256 / 8)
  else if la < 0xA4200000 then mgetD s.que.heads ((la - 0xA4000000) / 8) 0
  else if la < 0xA4A00000 then mgetD s.que.members ((la - 0xA4200000) / 8) 0
  else s.statRead la

/-- n bytes of HBM from LA, each word least significant byte first. -/
def State.hbmRead (s : State) (la n : Nat) : List Byte :=
  (List.range n).map fun i => BitVec.ofNat 8 (s.hbmWord ((la + i) / 8 * 8) / 2 ^ (8 * ((la + i) % 8)))

/-! ### What the PCIe function presents (Table 15-1); no row reads configuration space -/

/-- Vendor ID. -/
def pcieVendor : BitVec 16 := 0xE7A5
/-- Device ID. -/
def pcieDevice : BitVec 16 := 0x0256
/-- Class code. -/
def pcieClass : BitVec 24 := 0x028000

/-! ### BAR2 (R353, R375, Table 15-4) -/

/-- The LA of a BAR2 offset. -/
def State.bar2LA (s : State) (off : Nat) : Nat := s.f F.HST_CTRL_APERTURE * 2 ^ 30 + off

/-- The host staging area of the management region (R372). -/
def staging (la : Nat) : Bool := decide (0x70000000 ≤ la) && decide (la < 0x80000000)

/-- The level that BAR2 access to LA asks for. -/
def bar2Level (la : Nat) : Nat := if la < 0x70000000 then 2 else 1

/-- LA lies in the spill region (Table 10-2), which Table 15-4 opens to no read. -/
def State.inSpill (s : State) (la : Nat) : Bool :=
  decide (0x180000000 ≤ la) && decide (la < if s.f F.HST_ID_ORDER = 0 then 0xF80000000 else 0x7C0000000)

/-- LA lies in a region that BAR2 reads: every other address reads zero (R226, Table 15-4). -/
def bar2Reads (la : Nat) : Bool := decide (la < 0xA4A00000) || (decide (0xC0000000 ≤ la) && decide (la < 0x100000000))

/-- A BAR2 access comes before the image runs to the management region, which R337 refuses. -/
def State.bar2Early (s : State) (la : Nat) : Bool := decide (la < 0x80000000) && !s.boot.imageRun

/-- Meaning of BAR2_READ: n bytes at an offset of the window (Table 15-4). While HBM's clocks stop, before READY or while no
burst is left for it, the access waits, and in P3 it starts the exit: it comes again (log entry 41). `bad` says that the read
came back uncorrectable. -/
def execBar2Read (offset : BitVec 30) (bytes : Nat) (s : State) (bad : Bool := false) : Ans :=
  let s := s.begin
  if !s.pathUp .pcie then .next s
  else
    let la := s.bar2LA offset.toNat
    if s.level .pcie < bar2Level la || s.inSpill la then .next (s.denied.emit (.bar2Data (List.replicate bytes 0)))
    else if s.bar2Early la then .next (s.accessErr.emit (.completerAbort .pcie))
    else if !s.coreLive then .next s
    else if s.f F.PWR_STATUS_DEVICE = 3 then .next s.trigDevice
    else .next (s.onHbm 5 true [(la, bytes)] fun s =>
      if (bad || s.poisoned la bytes) && bar2Reads la then s.accessErr.emit (.poisoned .pcie)
      else s.emit (.bar2Data (s.hbmRead la bytes)))

/-- Meaning of BAR2_WRITE: the management region takes it at the allowed level. Elsewhere Table 15-4 allows none: an
administrator's is ignored (R226), any other is denied. -/
def execBar2Write (offset : BitVec 30) (data : List Byte) (s : State) : Ans :=
  let s := s.begin
  if !s.pathUp .pcie then .next s
  else
    let la := s.bar2LA offset.toNat
    if s.level .pcie < (if staging la then 1 else 2) then .next s.denied
    else if 0x80000000 ≤ la then .next s
    else if s.bar2Early la then .next (s.accessErr.emit (.completerAbort .pcie))
    else if !s.coreLive then .next s
    else if s.f F.PWR_STATUS_DEVICE = 3 then .next s.trigDevice
    else .next (s.onHbm 5 false [(la, data.length)] fun s => s.mgmtWrite la data)

/-! ### SMBus (R377) -/

/-- Meaning of SMBUS_ADDRESS_SET: command 0x10 sets the register address; a bad PEC is refused with NACK. -/
def execSmbusAddressSet (addr : W32) (pecOk : Bool) (s : State) : Ans :=
  s.onMgmt fun s =>
    if pecOk then { s with bus := { s.bus with smbAddr := addr } } else s.emit .smbusNack

/-- Meaning of SMBUS_STRETCH_TIMEOUT: an access that waits has stretched the clock for 25 ms; the bus is let go, and the
next read of command 0x11 answers all ones. -/
def execSmbusStretchTimeout (s : State) : Ans :=
  s.onMgmt fun s =>
    if s.bus.smbWait then { s with bus := { s.bus with smbWait := false, smbTimedOut := true } } else s

end Sys2Proof.Machine
end

