-- ==== Sys2Proof/Machine/Tables.lean ====
section
/-! DEFINITION. The table targets of Table 15-9: what each memory takes and refuses, and what a read of it returns. -/
namespace Sys2Proof.Machine

/-! ### Command status (Table 15-10) -/

/-- OK. -/
def stOk : Nat := 0x00
/-- DENIED. -/
def stDenied : Nat := 0x01
/-- BAD_ARG. -/
def stBadArg : Nat := 0x02
/-- PENDING. -/
def stPending : Nat := 0x08
/-- QUEUE_BUSY. -/
def stQueueBusy : Nat := 0x09
/-- UNWRAP_FAIL. -/
def stUnwrap : Nat := 0x0B
/-- FACET_MISMATCH. -/
def stFacet : Nat := 0x0C
/-- WRONG_MODE. -/
def stMode : Nat := 0x0E
/-- REFUSED. -/
def stRefused : Nat := 0x0F
/-- BUS_ERROR. -/
def stBus : Nat := 0x10
/-- UPDATE_ERR. -/
def stUpdate : Nat := 0x11
/-- NOT_READY. -/
def stNotReady : Nat := 0x12

/-! ### Targets (Table 15-9) -/

/-- A row of Table 15-9: entry bytes, entries, whether each slice holds its own, whether writes ask for an administrator. -/
structure Target where
  bytes : Nat
  count : Nat
  slices : Bool
  admin : Bool
  deriving DecidableEq, Repr

/-- Table 15-9. -/
def targetOf (t : Nat) : Option Target :=
  match t with
  | 0x01 => some ⟨32, 256, true, true⟩
  | 0x02 => some ⟨16, 4096, true, true⟩
  | 0x03 => some ⟨8, 16, true, true⟩
  | 0x04 => some ⟨72, 1024, true, true⟩
  | 0x05 => some ⟨4, 65536, true, true⟩
  | 0x06 => some ⟨8, 16, true, true⟩
  | 0x07 => some ⟨4, 1, true, true⟩
  | 0x08 => some ⟨8, 57344, false, false⟩
  | 0x09 => some ⟨32, 8192, false, true⟩
  | 0x0A => some ⟨16, 192, false, false⟩
  | 0x0B => some ⟨16, 4096, false, false⟩
  | 0x0C => some ⟨16, 65536, false, false⟩
  | 0x0D => some ⟨16, 262144, false, false⟩
  | 0x0E => some ⟨8, 1048576, false, false⟩
  | 0x0F => some ⟨16, 262144, false, false⟩
  | 0x10 => some ⟨8, 262144, false, false⟩
  | 0x11 => some ⟨8, 1048576, false, false⟩
  | 0x12 => some ⟨4, 131072, false, false⟩
  | 0x13 => some ⟨16, 16384, false, false⟩
  | 0x14 => some ⟨8, 1024, false, false⟩
  | _ => none

/-- The words of an entry's bytes: 64-bit words, least significant byte first, or one 32-bit word. -/
def entryWords (n : Nat) (b : List Byte) : List Nat :=
  if n = 4 then [leNat (b.take 4)] else (List.range (n / 8)).map fun i => leNat (slice b (8 * i) 8)

/-- The bytes of an entry's words. -/
def entryBytes (n : Nat) (w : List Nat) : List Byte :=
  if n = 4 then leBytes 4 (w.getD 0 0) else w.flatMap (leBytes 8)

/-! ### Parser and program banks (R114, R115, R196) -/

/-- Store an inactive parser bank's entry; reserved bits read zero (R5). -/
def State.prsPut (s : State) (t sl idx : Nat) (w : List Nat) : State :=
  let b := 1 - s.prsBank sl
  let g := fun i => w.getD i 0
  let p := s.prs
  { s with prs :=
    match t with
    | 0x01 =>
      let e := [g 0 &&& 0xFFFFFFFFFFFFFF00, g 1 &&& 0xFFFFFFFFFE000000, g 2 &&& 0xFFFFF000FFFFF000,
                g 3 &&& 0xFFFFF000FFFFF000]
      { p with nodes := mset p.nodes (bankKey sl b 256 idx) e }
    | 0x02 => { p with trans := mset p.trans (bankKey sl b 4096 idx) [g 0, g 1 &&& 0xFFC0000000000000] }
    | 0x03 => { p with starts := msetD p.starts (bankKey sl b 16 idx) 0 (g 0 % 256) }
    | _ => { p with pats := mset p.pats (bankKey sl b 1024 idx) ((g 0 &&& 0xFFFFFFFFFF000000) :: (w.drop 1).take 8) } }

/-- Store an inactive program bank's entry. -/
def State.progPut (s : State) (t sl idx : Nat) (w : List Nat) : State :=
  let b := progBank sl (1 - s.ppeBank sl)
  let v := w.getD 0 0
  let p := s.ppe
  { s with ppe :=
    match t with
    | 0x05 => { p with prog := msetD p.prog (b * 65536 + idx) 0 (BitVec.ofNat 32 v) }
    | 0x06 => { p with pent := msetD p.pent (b * 16 + idx) (0, 0) (bits v 31 16, bits v 7 0) }
    | _ => { p with plen := msetD p.plen b 0 v } }

/-! ### Nodes, queues, policers and groups (R250, R251, R255, R259, R261, R262) -/

/-- The ancestor of an egress queue at a level. -/
def State.ancestor (s : State) (q : Nat) (l : Nat) : Nat :=
  let n3 := bits (s.qDesc q) 17 0
  let n2 := s.nodeParent 3 n3
  let n1 := s.nodeParent 2 n2
  match l with | 3 => n3 | 2 => n2 | 1 => n1 | _ => s.nodeParent 1 n1

/-- A queue holds a frame. -/
def State.queueHolds (s : State) (q : Nat) : Bool :=
  s.frameCount q != 0 || (s.qOf q).restoring.isSome || (match s.que.flush with | some x => x.1 == q | none => false)

/-- A node has a queued frame in its subtree. -/
def State.subtreeBusy (s : State) (l m : Nat) : Bool :=
  ((s.que.q.map (·.1)) ++ (s.que.flush.toList.map (·.1)) ++ (s.buf.full.map (·.1))).any fun q =>
    !s.isVoq q && s.queueHolds q && s.ancestor q l == m

/-- The nodes of a level (Table 11-6). -/
def levelNodes (l : Nat) : Nat := match l with | 0 => 192 | 1 => 4096 | 2 => 65536 | _ => 262144

/-- A valid node entry's fields break a rule of R261, R262, R266 or R271. -/
def State.nodeBad (s : State) (l m w0 w1 : Nat) : Bool :=
  let t := refillPeriod l
  decide (bits w0 47 32 * 64000 < bits w1 63 40 * t) || decide (bits w0 31 16 * 64000 < bits w1 39 16 * t) ||
  (if l = 0 then (bit w0 63 && decide (144 ≤ m)) || (bits w1 39 16 == 0 && decide (m < 128) && s.fb F.SHP_GALLEY_CTRL_EN m)
   else decide (levelNodes (l - 1) ≤ bits w1 15 0) || bits w0 55 48 == 0 || bits w0 15 9 != 0)

/-- Write a node (R262): a status and the state. One made valid starts with full buckets (Table 11-9); new rates and bursts
of a valid one come into force with its next refill (R267). -/
def State.nodePut (s : State) (l m : Nat) (w : List Nat) : Nat × State :=
  let w0 := w.getD 0 0 &&& 0xF0FFFFFFFFFFFE00
  let w1 := w.getD 1 0
  let was := s.nodeValid l m
  let now := bit w0 63
  if s.nodeBad l m w0 w1 then (stRefused, s)
  else if was && (!now || (l != 0 && bits w1 15 0 != s.nodeParent l m)) && s.subtreeBusy l m then (stRefused, s)
  else
    let k := nodeKey l m
    let full : Bucket := { c := ((bits w0 47 32 * 64000 : Nat) : Int), p := ((bits w0 31 16 * 64000 : Nat) : Int), w0 := w0, w1 := w1 }
    (stOk, { s with que := { s.que with
      node := msetD s.que.node k (0, 0) (w0, w1)
      bucket := if now && !was then mset s.que.bucket k full else if now then s.que.bucket else merase s.que.bucket k } })

/-- The bits of a descriptor that a queue holding a frame may not change (R251): VALID, TYPE, and PARENT, or DEST_EP,
DEST_QID and DEST_MC. -/
def descFixed (w : Nat) : Nat := w &&& (if bit w 62 then 0xC00000000003FFFF else 0xC00403FF000FFFFF)

/-- Write a queue descriptor (R250, R251). A VOQ made valid starts with its balance 0 and OFF (R286). -/
def State.descPut (s : State) (q : Nat) (w : List Nat) : Nat × State :=
  let v0 := w.getD 0 0
  let v := if bit v0 62 then v0 &&& 0xFFFCFF000003FFFF else v0 &&& 0xFFE403FF000FFFFF
  let old := s.qDesc q
  if bit old 63 && s.queueHolds q && (!bit v 63 || descFixed v != descFixed old) then (stQueueBusy, s)
  else if bit v 62 == s.isVoq q || (bit v 62 && bits v 47 40 == 0) then (stRefused, s)
  else
    let s1 := { s with que := { s.que with desc := msetD s.que.desc q 0 v } }
    (stOk, if bit v 63 && !bit old 63 then
        { s1.setQ q {} with fab := { s1.fab with voq := merase s1.fab.voq q } }
      else s1)

/-- Write a policer (R259, R260): its counts start full when it is made valid, and stay as they are otherwise. -/
def State.polPut (s : State) (i : Nat) (w : List Nat) : Nat × State :=
  let w0 := w.getD 0 0 &&& 0xE000FFFFFFFF0000
  let w1 := w.getD 1 0 &&& 0xFFFFFFFFFFFF0000
  let now := bit w0 63
  let was := bit (mgetD s.que.pol i (0, 0)).1 63
  if bits w0 47 32 == 0 || bits w0 31 16 == 0 || (bit w0 62 && decide (bits w1 39 16 < bits w1 63 40)) then
    (stRefused, s)
  else
    (stOk, { s with que := { s.que with
      pol := msetD s.que.pol i (0, 0) (w0, w1)
      tok := if now && !was then mset s.que.tok i ⟨bits w0 47 32 * 64000, bits w0 31 16 * 64000, s.pica.num⟩ else s.que.tok } })

/-- Write a group head (R255). -/
def State.headPut (s : State) (i : Nat) (w : List Nat) : Nat × State :=
  let v := w.getD 0 0 &&& 0x80000000FFFFFFFF
  if 1048576 < bits v 19 0 + bits v 31 20 then (stRefused, s)
  else (stOk, { s with que := { s.que with heads := msetD s.que.heads i 0 v } }.hbmWritten (0xA4000000 + 8 * i) 8)

/-- Write a group member. -/
def State.memberPut (s : State) (i : Nat) (w : List Nat) : State :=
  { s with que := { s.que with members := msetD s.que.members i 0 (w.getD 0 0 &&& 0xC3FFFF00000FFFFF) } }.hbmWritten
    (0xA4200000 + 8 * i) 8

/-! ### Galley entries, streams, the RX SC CAM (R84, R269, R315) -/

/-- Write an entry of a Galley's inactive bank (R269). -/
def State.galleyPut (s : State) (idx : Nat) (w : List Nat) : Nat × State :=
  let v := w.getD 0 0 % 2 ^ 32
  if bits v 23 0 < 32 then (stRefused, s)
  else
    let n := idx / 1024
    let i := idx % 1024
    let g := s.galley n
    let b := g.idle
    (stOk, s.setGalley n (g.setIdle { b with
      entries := mset b.entries i v, written := if b.written.contains i then b.written else b.written ++ [i] }))

/-- Write a stream entry (R315): one made valid starts with HVALID clear and SEQ as written. MODE and HIST are checked
whatever VALID says (log entry 59). -/
def State.streamPut (s : State) (i : Nat) (w : List Nat) : Nat × State :=
  let w0 := w.getD 0 0
  if 1 < bits w0 62 61 ∨ 64 < bits w0 54 48 then (stRefused, s)
  else
    let old := s.streamOf i
    let v := bit w0 63
    let x : Stream := { valid := v, mode := bits w0 62 61, hvalid := bit w0 60 && (old.isSome || !v), hist := bits w0 54 48
                        seq := bits w0 23 0, history := w.getD 1 0
                        last := match old with | some o => o.last | none => if v then s.pica.num else 0 }
    (stOk, { s with cb := msetD s.cb i { valid := false, mode := 0 } x })

/-- The words of a stream entry. -/
def Stream.words (x : Stream) : List Nat :=
  [b2n x.valid * 2 ^ 63 + x.mode * 2 ^ 61 + b2n x.hvalid * 2 ^ 60 + x.hist * 2 ^ 48 + x.seq, x.history]

/-- The RX SC CAM entry that four words spell (Table 4-3). -/
def scOf (w : List Nat) : ScEntry :=
  let g := fun i => w.getD i 0
  { valid := bit (g 0) 63, port := bits (g 0) 62 56, sci := g 1, anValid := bits (g 2) 63 60
    sa := [bits (g 2) 17 0, bits (g 2) 35 18, bits (g 3) 17 0, bits (g 3) 35 18] }

/-- The words of an RX SC CAM entry. -/
def ScEntry.words (e : ScEntry) : List Nat :=
  let a := fun i => e.sa.getD i 0
  [b2n e.valid * 2 ^ 63 + e.port * 2 ^ 56, e.sci, e.anValid * 2 ^ 60 + a 1 * 2 ^ 18 + a 0, a 3 * 2 ^ 18 + a 2]

/-! ### Writing and reading a target (R365) -/

/-- The slices a mask names. -/
def maskSlices (m : Nat) : List Nat := (List.range 8).filter (bit m)

/-- Write one entry of a target, to every named slice where the target has its own in each: a status and the state. -/
def State.tblPut (s : State) (t mask idx : Nat) (w : List Nat) : Nat × State :=
  let sls := maskSlices mask
  match targetOf t with
  | none => (stBadArg, s)
  | some x =>
    if x.count ≤ idx then (stBadArg, s)
    else if t ≤ 0x04 then
      if sls.any fun sl => bit (s.f F.PRS_BANK_STATUS_PENDING) sl then (stPending, s)
      else (stOk, sls.foldl (fun u sl => u.prsPut t sl idx w) s)
    else if t ≤ 0x07 then
      if t = 0x07 ∧ 65536 < w.getD 0 0 then (stBadArg, s)
      else if sls.any fun sl => bit (s.f F.PPE_BANK_STATUS_PENDING) sl then (stPending, s.cfgErr F.PPE_STATUS_CFG_ERR 369)
      else (stOk, sls.foldl (fun u sl => u.progPut t sl idx w) s)
    else match t with
      | 0x08 => (stOk, { s with ppe := { s.ppe with crep := msetD s.ppe.crep idx 0 (BitVec.ofNat 64 (w.getD 0 0)) } })
      | 0x09 => (stOk, { s with cry := { s.cry with cam := msetD s.cry.cam idx {} (scOf w) } })
      | 0x0A => s.nodePut 0 idx w
      | 0x0B => s.nodePut 1 idx w
      | 0x0C => s.nodePut 2 idx w
      | 0x0D => s.nodePut 3 idx w
      | 0x0E => s.descPut idx w
      | 0x0F => s.polPut idx w
      | 0x10 => s.headPut idx w
      | 0x11 => (stOk, s.memberPut idx w)
      | 0x12 => s.galleyPut idx w
      | 0x13 => s.streamPut idx w
      | _ => (stOk, { s with fab := { s.fab with reach := msetD s.fab.reach idx (2 ^ 40 - 1) (w.getD 0 0 % 2 ^ 40) } })

/-- A list of words filled to n with zeros. -/
def wordsFit (n : Nat) (l : List Nat) : List Nat := (List.range n).map fun i => l.getD i 0

/-- The words of one entry of a target; banked ones of the inactive bank of a slice. -/
def State.tblGet (s : State) (t sl idx : Nat) : List Nat :=
  let b := 1 - s.prsBank sl
  let pb := progBank sl (1 - s.ppeBank sl)
  let nd := fun l => let w := s.nodeOf l idx; [w.1, w.2]
  match t with
  | 0x01 => wordsFit 4 (mgetD s.prs.nodes (bankKey sl b 256 idx) [])
  | 0x02 => wordsFit 2 (mgetD s.prs.trans (bankKey sl b 4096 idx) [])
  | 0x03 => [mgetD s.prs.starts (bankKey sl b 16 idx) 0]
  | 0x04 => wordsFit 9 (mgetD s.prs.pats (bankKey sl b 1024 idx) [])
  | 0x05 => [(mgetD s.ppe.prog (pb * 65536 + idx) 0).toNat]
  | 0x06 => let e := mgetD s.ppe.pent (pb * 16 + idx) (0, 0); [e.1 * 65536 + e.2]
  | 0x07 => [mgetD s.ppe.plen pb 0]
  | 0x08 => [(mgetD s.ppe.crep idx 0).toNat]
  | 0x09 => (mgetD s.cry.cam idx {}).words
  | 0x0A => nd 0
  | 0x0B => nd 1
  | 0x0C => nd 2
  | 0x0D => nd 3
  | 0x0E => [s.qDesc idx]
  | 0x0F => let w := mgetD s.que.pol idx (0, 0); [w.1, w.2]
  | 0x10 => [mgetD s.que.heads idx 0]
  | 0x11 => [mgetD s.que.members idx 0]
  | 0x12 => [mgetD (s.galley (idx / 1024)).idle.entries (idx % 1024) 0]
  | 0x13 => match mget s.cb idx with | some x => x.words | none => [0, 0]
  | _ => [mgetD s.fab.reach idx (2 ^ 40 - 1)]

/-- Write entries in index order, up to the first refused one: its status, the entries applied before it, and the state. -/
def State.tblPuts (t mask : Nat) : List (List Nat) → Nat → Nat → State → Nat × Nat × State
  | [], _, n, s => (stOk, n, s)
  | w :: rest, idx, n, s =>
    match s.tblPut t mask idx w with
    | (st, s1) => if st = stOk then tblPuts t mask rest (idx + 1) (n + 1) s1 else (st, n, s1)

/-- Cut bytes into n-byte entries. -/
def cutEntries (n : Nat) : Nat → List Byte → List (List Nat)
  | 0, _ => []
  | k + 1, b => entryWords n (b.take n) :: cutEntries n k (b.drop n)

/-! ### Raw rows (R150, R151, R153, R160, R364) -/

/-- The check of a row command: BAD_ARG, WRONG_MODE, or the table and width of the entry. -/
def State.rowTarget (s : State) (width row : Nat) : Except Nat (Nat × Nat) :=
  match s.rowTable row with
  | none => .error stBadArg
  | some t =>
    if s.f F.TRN_TBL_CFG_WIDTH t ≠ width ∨ row % tdRows width ≠ 0 then .error stBadArg
    else if !s.fb F.TRN_TBL_CFG_MODE t then .error stMode
    else .ok (t, tdRows width)

/-- VALUE and MASK of the record of Table 7-3. -/
def recordVM (w : Nat) (r : Nat → Nat) : Nat × Nat :=
  (List.range w).foldl (fun a i =>
    (a.1 * 2 ^ 80 + bits (r (2 + 3 * i)) 63 48 * 2 ^ 64 + r (3 + 3 * i),
     a.2 * 2 ^ 80 + bits (r (2 + 3 * i)) 47 32 * 2 ^ 64 + r (4 + 3 * i))) (0, 0)

/-- Write the record of a raw entry: a status and the state. -/
def State.rowWrite (s : State) (width row : Nat) (r : Nat → Nat) : Nat × State :=
  match s.rowTarget width row with
  | .error st => (st, s)
  | .ok (t, w) =>
    let vm := recordVM w r
    if s.facetOk t (row / 4096) vm.1 vm.2 then (stOk, s.tdWrite row w vm.1 vm.2 (r 1) (bit (r 0) 63))
    else (stFacet, s)

/-- The record of a raw entry as words. -/
def State.rowRecord (s : State) (w row : Nat) : List Nat :=
  let x := s.row row
  [b2n x.valid * 2 ^ 63, x.result] ++ (List.range w).flatMap fun i =>
    let y := s.row (row + i)
    [y.value / 2 ^ 64 * 2 ^ 48 + y.mask / 2 ^ 64 * 2 ^ 32, y.value % 2 ^ 64, y.mask % 2 ^ 64]

end Sys2Proof.Machine
end

