-- ==== Sys2Proof/Machine/Wq.lean ====
section
/-! DEFINITION. Work queues: fetching, halts, disabling, and how a command runs and completes (R358 to R363). -/
namespace Sys2Proof.Machine

/-! ### Entries (R359, Table 15-8) -/

/-- The header word of an entry. -/
def WqEntry.head (e : WqEntry) : Nat := (e.words.getD 0 0).toNat
/-- OPCODE. -/
def WqEntry.op (e : WqEntry) : Nat := bits e.head 63 56
/-- LEN. -/
def WqEntry.len (e : WqEntry) : Nat := bits e.head 55 48
/-- Word i of an entry. -/
def WqEntry.w (e : WqEntry) (i : Nat) : Nat := (e.words.getD i 0).toNat
/-- The index after an entry. -/
def WqEntry.next (e : WqEntry) : Nat := (e.idx + e.len) % 2 ^ 32

/-- The LEN that Table 15-8 gives an opcode; none where the opcode is reserved. -/
def opLen (op : Nat) : Option (Nat × Nat) :=
  match op with
  | 0x00 => some (1, 128)
  | 0x08 => some (2, 128)
  | 0x10 | 0x11 | 0x12 | 0x13 | 0x38 | 0x48 => some (2, 2)
  | 0x18 | 0x19 | 0x1A | 0x1C => some (4, 4)
  | 0x20 => some (7, 7)
  | 0x25 => some (3, 3)
  | 0x01 | 0x02 | 0x09 | 0x1D | 0x1E | 0x1F | 0x21 | 0x22 | 0x23 | 0x30 | 0x39 | 0x40 | 0x41 | 0x42 | 0x43 => some (1, 1)
  | _ => none

/-- The difference of two indices that wrap modulo 2^32. -/
def idxDiff (a b : Nat) : Nat := (a + 2 ^ 32 - b % 2 ^ 32) % 2 ^ 32

/-- The cause of Table 15-7 that makes the entry at an index malformed; 0 for none. -/
def State.wqCause (s : State) (q idx head : Nat) : Nat :=
  let ci := s.f F.HST_WQ_CI_INDEX q
  let pi := s.f F.HST_WQ_PI_INDEX q
  let n := 2 ^ s.f F.HST_WQ_CFG_SIZE q
  let len := bits head 55 48
  if n < idxDiff pi ci then 6
  else
    match opLen (bits head 63 56) with
    | none => 1
    | some (lo, hi) =>
      if len < lo ∨ hi < len then 2
      else if idxDiff pi idx < len then 3
      else if n < idx % n + len then 4
      else if bits head 45 16 ≠ 0 then 5
      else 0

/-- The WQs stop: HST_HALT, HALTED, the event, and the CORE group's hold (R363). -/
def State.haltNow (s : State) (v : W64) : State :=
  let s1 := { s with hst := { s.hst with halt := none } }
  ((((s1.wr .HST_HALT 0 0 0 v).setF F.HST_STATUS_HALTED 1).raiseD 33 v)).requestCore (some .halt)

/-- A halt that waits for the commands in execution follows the last of them (Table 15-14). -/
def State.settleHalt (s : State) : State :=
  match s.hst.halt with
  | some v => if s.hst.wq.any fun kv => kv.2.exec.isSome then s else s.haltNow v
  | none => s

/-- Work queues run: not halted, and no halt is due. -/
def State.wqsRun (s : State) : Bool := !s.fb F.HST_STATUS_HALTED && s.hst.halt.isNone

/-- The effect of setting EN: the queue fetches from CI. -/
def State.wqEnable (s : State) (q : Nat) : State :=
  (s.setWq q { s.wqOf q with cache := [], stop := none }).setF F.HST_WQ_STATUS_ENABLED 1 q

/-- The effect of a write of PI: fetching goes on past an index that INVAL named (R361). -/
def State.wqDoorbell (s : State) (q : Nat) : State := s.setWq q { s.wqOf q with stop := none }

/-- The effect of a write of HST_WQ_INVAL (R361). -/
def State.wqInval (s : State) (q idx : Nat) : State :=
  let x := s.wqOf q
  let ci := s.f F.HST_WQ_CI_INDEX q
  let begun := match x.exec with | some e => decide (idxDiff idx e.idx < e.len) | none => false
  let s1 := s.setWq q { x with cache := x.cache.filter fun e => decide (2 ^ 31 ≤ idxDiff e.idx idx), stop := some idx }
  if begun || decide (idxDiff (s.f F.HST_WQ_PI_INDEX q) ci ≤ idxDiff idx ci) then
    s1.setF F.HST_WQ_STATUS_INVAL_LATE 1 q
  else s1

/-- Queues that waited for room in a completion queue go on (R360, R378). Which of them runs next is for the row that comes
next to say: their rotation is no state (DESIGN CHOICE, log entry 114). -/
def State.cqResume (s : State) (c : Nat) : State :=
  if s.cqRoom c 1 then
    (List.range 64).foldl (fun u q =>
      if u.f F.HST_WQ_CFG_CQ q = c ∧ u.fb F.HST_WQ_STATUS_WAIT_CQ q then u.setF F.HST_WQ_STATUS_WAIT_CQ 0 q else u) s
  else s

/-- The index the next fetch of a queue is at. -/
def State.fetchAt (s : State) (q : Nat) : Nat :=
  let x := s.wqOf q
  match x.cache.getLast? with
  | some e => e.next
  | none => match x.exec with
    | some e => e.next
    | none => s.f F.HST_WQ_CI_INDEX q

/-- A queue may fetch: enabled, entries posted, room in its cache, and not stopped by INVAL (R361). -/
def State.wqFetches (s : State) (q : Nat) : Bool :=
  let x := s.wqOf q
  let at_ := s.fetchAt q
  let ci := s.f F.HST_WQ_CI_INDEX q
  s.wqsRun && s.fb F.HST_WQ_CFG_EN q && s.fb F.HST_WQ_STATUS_ENABLED q && decide (x.cache.length < 8) &&
  decide (idxDiff at_ ci < idxDiff (s.f F.HST_WQ_PI_INDEX q) ci) &&
  (match x.stop with | some i => decide (2 ^ 31 ≤ idxDiff at_ i) | none => true)

/-- Meaning of WQ_ENTRY_FETCH: the entry at the fetch index has been read from host memory (its units' words), or the read
met a bus error. A malformed one halts the device (R361, R363). -/
def execWqEntryFetch (wq : BitVec 6) (words : Option (List W64)) (s : State) : Ans :=
  s.onMgmt fun s =>
    let q := wq.toNat
    if !s.pathUp .pcie || !s.wqFetches q then s
    else
      match words with
      | none => ((s.setF F.HST_WQ_STATUS_FETCH_ERR 1 q).setF F.HST_WQ_CFG_EN 0 q).settleDisable q
      | some l =>
        let idx := s.fetchAt q
        let head := (l.getD 0 0).toNat
        let c := s.wqCause q idx head
        if c ≠ 0 then
          let v := BitVec.ofNat 64 (c * 2 ^ 60 + q * 2 ^ 48 + bits head 63 56 * 2 ^ 40 + idx)
          { s with hst := { s.hst with halt := some v } }.settleHalt
        else
          let x := s.wqOf q
          s.setWq q { x with cache := x.cache ++ [⟨idx, l.take (4 * bits head 55 48)⟩] }

/-! ### Running a command (R360, R366) -/

/-- What a command answers: its status, RESULT and DETAIL; or that it waits in execution; or that it has not begun and
comes again. -/
inductive CmdAns where
  | done (status result detail : Nat) (s : State)
  | wait (s : State)
  | later (s : State)

/-- A command that completed without more to say. -/
def CmdAns.ok (s : State) : CmdAns := .done stOk 0 0 s
/-- A command that ended with a status and changed nothing. -/
def CmdAns.err (st : Nat) (s : State) : CmdAns := .done st 0 0 s

/-- The check code that a refused command answers in DETAIL: no table gives one to a refusal that a command can meet, so it is
a free value (R366, log entry 62). -/
def State.checkCode (s : State) (st detail : Nat) : Nat × State :=
  if st = stRefused then (s.fresh.1.toNat, s.fresh.2) else (detail, s)

/-- The entry in execution completes: its completion is posted unless it succeeded without CMPL, and CI passes it. A
completion queue that was disabled meanwhile takes none (DESIGN CHOICE, log entry 113). -/
def State.finish (s : State) (q st result detail : Nat) : State :=
  match (s.wqOf q).exec with
  | none => s
  | some e =>
    let c := s.f F.HST_WQ_CFG_CQ q
    let w0 := st * 2 ^ 40 + e.op * 2 ^ 32 + q * 2 ^ 16 + e.head % 65536
    let d := s.checkCode st detail
    let s1 := if (st ≠ stOk ∨ bit e.head 47) ∧ s.fb F.HST_CQ_CFG_EN c then d.2.cqPost c [w0, result, d.1, 0] (bit e.head 46) else d.2
    let s2 := (s1.setF F.HST_WQ_CI_INDEX e.next q).setWq q { s1.wqOf q with exec := none, level := 0 }
    (s2.settleDisable q).settleHalt

/-- The state of an answer. -/
def CmdAns.state (a : CmdAns) : State :=
  match a with | .done _ _ _ s => s | .wait s => s | .later s => s

/-- The end of a command's step. -/
def CmdAns.settle (a : CmdAns) (q : Nat) (before : State) : State :=
  match a with
  | .done st r d s => s.finish q st r d
  | .wait s => s
  | .later s => { s with hst := { s.hst with wq := before.hst.wq } }

/-- What a command needs before it runs: its level, whether it acts on a CORE block, and what must be ready there. -/
structure Need where
  level : Nat
  core : Bool
  ready : State → Bool

/-- A command that acts on the management complex alone. -/
def needMgmt (level : Nat) : Need := ⟨level, false, fun _ => true⟩
/-- A command to a CORE block. -/
def needCore (level : Nat) (ready : State → Bool := fun _ => true) : Need := ⟨level, true, ready⟩

/-- Run a command that has begun: its level, the readiness of its block, then its meaning. In P3 a command to a CORE block
asks for the exit and comes again (R395, log entry 42). -/
def State.cmdRun (s : State) (lv : Nat) (n : Need) (f : State → CmdAns) : CmdAns :=
  if lv < n.level then .err stDenied s
  else if n.core && !s.coreLive then .err stNotReady s
  else if n.core && s.f F.PWR_STATUS_DEVICE == 3 then .later s.trigDevice
  else if !n.ready s then .err stNotReady s
  else f s

/-- The head entry of a queue begins when it has this opcode and the completion queue has room (R360). -/
def State.wqRun (s : State) (q op : Nat) (n : WqEntry → Need) (f : WqEntry → State → CmdAns) : State :=
  let x := s.wqOf q
  if x.exec.isSome || !s.wqsRun || !s.fb F.HST_WQ_CFG_EN q || !s.fb F.HST_WQ_STATUS_ENABLED q then s
  else
    match x.cache with
    | [] => s
    | e :: rest =>
      if e.op ≠ op then s
      else if !s.cqRoom (s.f F.HST_WQ_CFG_CQ q) 1 then s.setF F.HST_WQ_STATUS_WAIT_CQ 1 q
      else
        let lv := Nat.min (s.f F.HST_WQ_CFG_CAP q + 1) (s.level .pcie)
        let s0 := if s.fb F.HST_WQ_STATUS_WAIT_CQ q then s.setF F.HST_WQ_STATUS_WAIT_CQ 0 q else s
        let s1 := s0.setWq q { x with cache := rest, exec := some e, level := lv }
        (s1.cmdRun lv (n e) (f e)).settle q s0

/-- A command of a work queue, on the management die. -/
def State.command (s : State) (q : BitVec 6) (op : Nat) (n : WqEntry → Need) (f : WqEntry → State → CmdAns) : Ans :=
  s.onMgmt fun s => s.wqRun q.toNat op n f

/-- A command that may wait in execution: while it waits it comes again. -/
def State.commandWaits (s : State) (q : BitVec 6) (op : Nat) (n : WqEntry → Need) (f : WqEntry → State → CmdAns) : Ans :=
  s.onMgmt fun s =>
    let x := s.wqOf q.toNat
    match x.exec with
    | some e => if e.op = op then (s.cmdRun x.level (n e) (f e)).settle q.toNat s else s
    | none => s.wqRun q.toNat op n f

/-- The same answer with a further effect on the state. -/
def CmdAns.map (a : CmdAns) (g : State → State) : CmdAns :=
  match a with
  | .done st r d s => .done st r d (g s)
  | .wait s => .wait (g s)
  | .later s => .later (g s)

/-! ### Shared readings -/

/-- XMT has been cleared (R143). -/
def xmtReady (s : State) : Bool := s.fb F.XMT_STATUS_CLEAR_DONE
/-- TD has been cleared (R169). -/
def trnReady (s : State) : Bool := s.fb F.TRN_STATUS_CLEAR_DONE
/-- The SA region has been zeroed (R100). -/
def cryReady (s : State) : Bool := s.fb F.CRY_STATUS_ZERO_DONE

/-- The key encryption key of R98. -/
def State.kek (s : State) : List Byte := kmac s.hst.pcie.key s.hst.pcie.dn "GKP256 key wrap"

/-- Words i to i + n - 1 of an entry as a byte string, each word most significant byte first (log entry 43). -/
def WqEntry.bytes (e : WqEntry) (i n : Nat) : List Byte :=
  (List.range n).flatMap fun k => beBytes 8 (e.w (i + k))

/-- Words i to i + n - 1 of an entry as one number, the first word most significant. -/
def WqEntry.num (e : WqEntry) (i n : Nat) : Nat := (List.range n).foldl (fun a k => a * 2 ^ 64 + e.w (i + k)) 0

end Sys2Proof.Machine
end

