-- ==== Sys2Proof/Machine/Cmd.lean ====
section
/-! DEFINITION. The commands of the work queues (Table 15-8): fences, tables, exact match, the ternary die, security
associations and keys, BFD sessions and the update path. -/
namespace Sys2Proof.Machine

/-! ### NOP and fences (R145) -/

/-- Meaning of NOP. -/
def execNop (wq : BitVec 6) (s : State) : Ans :=
  s.command wq 0x00 (fun _ => needMgmt 0) fun _ s => .ok s

/-- Meaning of FENCE: it answers its generation, or FENCE_FULL. -/
def execFence (wq : BitVec 6) (s : State) : Ans :=
  s.command wq 0x01 (fun _ => needCore 1) fun _ s =>
    match s.fenceIssue with
    | (some g, s1) => .done stOk g 0 s1
    | (none, s1) => .err 0x0A s1

/-- FENCE_WAIT asks whether its generation is done. -/
def State.fencePoll (s : State) (e : WqEntry) : CmdAns :=
  if s.fenceDone (e.w 1 % 256) then .ok s else .wait s

/-- Meaning of FENCE_WAIT: it completes once the generation is done; while it waits it comes again, and a CORE reset ends it
(log entry 42). -/
def execFenceWait (wq : BitVec 6) (s : State) : Ans :=
  s.commandWaits wq 0x02 (fun _ => needCore 1) fun e s => s.fencePoll e

/-- A command's access to HBM: while no burst is left for it, or before READY, it waits and comes again (R229, R243). -/
def State.hbmCommand (s : State) (cls : Nat) (read : Bool) (l : List (Nat × Nat)) (f : State → CmdAns) : CmdAns :=
  let r := s.hbmAsk cls read l
  if r.1 then f r.2 else .later r.2

/-! ### Tables (R365) -/

/-- What n entries of a target from an index on ask of HBM: group heads and members lie there (R255). -/
def tblSpans (t idx n : Nat) : List (Nat × Nat) :=
  if n = 0 then [] else
    match t with
    | 0x10 => [(0xA4000000 + 8 * idx, 8 * n)]
    | 0x11 => [(0xA4200000 + 8 * idx, 8 * n)]
    | _ => []

/-- An access to entries of a target, which asks HBM where they lie there, in class FAR (R255). -/
def State.tblAsk (s : State) (t idx n : Nat) (read : Bool) (f : State → CmdAns) : CmdAns :=
  let l := tblSpans t idx n
  if l.isEmpty then f s else s.hbmCommand 2 read l f

/-- TARGET. -/
def WqEntry.target (e : WqEntry) : Nat := bits (e.w 1) 63 56
/-- SLICES. -/
def WqEntry.slices (e : WqEntry) : Nat := bits (e.w 1) 55 48

/-- The level a write of a target asks for. -/
def writeLevel (t : Nat) : Nat := match targetOf t with | some x => if x.admin then 2 else 1 | none => 1

/-- The blocks with a clearing of their own: link crypto's CAM waits for it (R100). -/
def targetReady (t : Nat) (s : State) : Bool := t != 0x09 || cryReady s

/-- Meaning of TBL_WRITE. -/
def execTblWrite (wq : BitVec 6) (s : State) : Ans :=
  s.command wq 0x08 (fun e => needCore (writeLevel e.target) (targetReady e.target)) fun e s =>
    match targetOf e.target with
    | none => .err stBadArg s
    | some x =>
      let n := bits (e.w 1) 47 32
      if 32 * (e.len - 1) < n * x.bytes then .err stBadArg s
      else s.tblAsk e.target (bits (e.w 1) 31 0) (Nat.min n (x.count - bits (e.w 1) 31 0)) false fun s =>
        let r := s.tblPuts e.target e.slices (cutEntries x.bytes n (wordsLE (e.words.drop 4))) (bits (e.w 1) 31 0) 0
        .done r.1 r.2.1 0 r.2.2

/-- Meaning of TBL_READ: entries go to host memory, whose access may fail (BUS_ERROR). -/
def execTblRead (wq : BitVec 6) (hostOk : Bool) (s : State) : Ans :=
  s.command wq 0x09 (fun e => needCore 1 (targetReady e.target)) fun e s =>
    match targetOf e.target with
    | none => .err stBadArg s
    | some x =>
      let n := bits (e.w 1) 47 32
      let i := bits (e.w 1) 31 0
      let sls := maskSlices e.slices
      if x.slices && sls.length != 1 then .err stBadArg s
      else if !hostOk then .err stBus s
      else
        let k := Nat.min n (x.count - i)
        s.tblAsk e.target i k true fun s =>
        if s.anyPoison (tblSpans e.target i k) then .err stBus s
        else
        let b := (List.range k).flatMap fun j => entryBytes x.bytes (s.tblGet e.target (sls.headD 0) (i + j))
        let s1 := if b.isEmpty then s else s.emit (.hostWrite (e.w 2) b)
        .done (if k < n then stBadArg else stOk) k 0 s1

/-! ### Exact match (R133, R134) -/

/-- TABLE of an exact-match command. -/
def WqEntry.xTable (e : WqEntry) : Nat := bits (e.w 1) 63 60
/-- KIND of an exact-match command. -/
def WqEntry.xKind (e : WqEntry) : Nat := bits (e.w 1) 59 58

/-- The status of an update engine's answer. -/
def XRes.status (r : XRes) : Nat :=
  match r with | .ok => stOk | .duplicate => 0x03 | .notFound => 0x04 | .full => 0x05 | .limit => 0x06

/-- The store whose update FIFO holds a work queue's command. -/
def State.xHolds (s : State) (q : Nat) : Option Nat :=
  (List.range 2).find? fun st => (s.xFifo st).any fun o => o == .command q

/-- A command's turn at the update engine of a table's store (R135): operations of the FIFO go first, and a full FIFO lets it
wait for space. A far table's buckets are a request of HBM. -/
def State.xTurn (s0 : State) (q t key : Nat) (f : State → CmdAns) : CmdAns :=
  let s := (s0.xNext 0).xNext 1
  let ask := if s.xStore t = 1 then s.hbmAsk 2 true (farSpans (s.keyWays t key)) else (true, s)
  let go := fun (u : State) => f (u.xRead t (u.xKey t key))
  match s.xHolds q with
  | some st =>
    match s.xFifo st with
    | .command p :: rest =>
      if p ≠ q then .wait s
      else if ask.1 then (go (ask.2.setXFifo st rest)).map (·.xNext st)
      else .wait ask.2
    | _ => .wait s
  | none =>
    if !s.xEn t then f s
    else if (s.xFifo (s.xStore t)).isEmpty then
      if ask.1 then go ask.2 else .wait (ask.2.xPush (s.xStore t) (.command q))
    else if s.xFifoRoom (s.xStore t) then .wait (s.xPush (s.xStore t) (.command q))
    else .wait s

/-- A command aimed at an exact-match table: BAD_ARG where the table is not enabled (R125), REFUSED for the reserved KIND. -/
def State.xCommand (s : State) (q : Nat) (e : WqEntry) (kind : Bool) (f : Nat → Nat → State → CmdAns) : CmdAns :=
  let t := e.xTable
  if kind && e.xKind == 3 && s.xEn t && (s.xHolds q).isNone then .err stRefused s
  else s.xTurn q t (e.num 2 3) fun u =>
    if !u.xEn t then .err stBadArg u else f t (u.xKey t (e.num 2 3)) u

/-- The update engine's answer as a command's. -/
def xAns (r : XRes × State) : CmdAns := .err r.1.status r.2

/-- Meaning of EM_INSERT. -/
def execEmInsert (wq : BitVec 6) (s : State) : Ans :=
  s.commandWaits wq 0x10 (fun _ => needCore 1 xmtReady) fun e s =>
    s.xCommand wq.toNat e true fun t key s => xAns (s.xInsert (s.xFresh t e.xKind (bits (e.w 1) 31 0) key))

/-- Meaning of EM_UPDATE. -/
def execEmUpdate (wq : BitVec 6) (s : State) : Ans :=
  s.commandWaits wq 0x11 (fun _ => needCore 1 xmtReady) fun e s =>
    s.xCommand wq.toNat e true fun t key s => xAns (s.xUpdate t key e.xKind (bits (e.w 1) 47 32) (bits (e.w 1) 31 0))

/-- Meaning of EM_DELETE. -/
def execEmDelete (wq : BitVec 6) (s : State) : Ans :=
  s.commandWaits wq 0x12 (fun _ => needCore 1 xmtReady) fun e s =>
    s.xCommand wq.toNat e false fun t key s => xAns (s.xDelete t key)

/-- Meaning of EM_READ: RESULT is row 0 of the entry. -/
def execEmRead (wq : BitVec 6) (s : State) : Ans :=
  s.commandWaits wq 0x13 (fun _ => needCore 1 xmtReady) fun e s =>
    s.xCommand wq.toNat e false fun t key s =>
      match (s.xFind t key).bind s.xAt with
      | some x => .done stOk (xRow (s.xStore t == 1) x 0) 0 s
      | none => .err 0x04 s

/-- A command's turn at TD's maintenance port, which applies operations in the order accepted: behind others it waits in the
FIFO, and while that is full it waits for space (R162, R163). `f` is what it does when it is its turn; the rows that it would
write now are those it waits to write. -/
def State.tdTurn (s : State) (q : Nat) (f : State → CmdAns) : CmdAns :=
  let wait := fun (u : State) =>
    CmdAns.wait (if u.trn.fifo.any fun o => match o with | .command p _ => p == q | _ => false then u
      else u.tdPush (.command q (u.tdDiff (f u).state)))
  match s.trn.fifo with
  | [] => f s
  | .command p _ :: rest => if p = q then f (s.setTdFifo rest) else wait s
  | _ => wait s

/-! ### Routes and access-list entries of managed tables (R150, R159, R160) -/

/-- TABLE of a route or ACL command. -/
def WqEntry.tdTable (e : WqEntry) : Nat := bits (e.w 1) 63 58
/-- PRIO: the prefix length or the priority. -/
def WqEntry.tdPrio (e : WqEntry) : Nat := bits (e.w 1) 47 32

/-- A route or ACL command at its turn: BAD_ARG where the table is not enabled or a prefix is longer than its key, WRONG_MODE
for a raw table; else the table, VALUE and MASK of its width. -/
def State.tdCommand (s : State) (q : Nat) (e : WqEntry) (f : State → Nat → Nat → Nat → CmdAns) : CmdAns :=
  s.tdTurn q fun s =>
    let t := e.tdTable
    let n := 80 * tdRows (s.f F.TRN_TBL_CFG_WIDTH t)
    if !s.fb F.TRN_TBL_CFG_EN t then .err stBadArg s
    else if s.fb F.TRN_TBL_CFG_MODE t then .err stMode s
    else if !s.fb F.TRN_TBL_CFG_KIND t && decide (n < e.tdPrio) then .err stBadArg s
    else f s t (e.num 3 5 % 2 ^ n) (e.num 8 5 % 2 ^ n)

/-- Meaning of TD_ADD: the placement service places the entry, or refuses TD_FULL with a notice (R159, R367). -/
def execTdAdd (wq : BitVec 6) (s : State) : Ans :=
  s.commandWaits wq 0x18 (fun _ => needCore 1 trnReady) fun e s =>
    s.tdCommand wq.toNat e fun s t v m =>
      match s.tdPlace t e.tdPrio v m (e.w 2) with
      | some (r, s1) => .done stOk r 0 s1
      | none => .err 0x0D (s.placeNotice 0x0D t e.tdPrio)

/-- Meaning of TD_CHANGE: a result update (R160). -/
def execTdChange (wq : BitVec 6) (s : State) : Ans :=
  s.commandWaits wq 0x19 (fun _ => needCore 1 trnReady) fun e s =>
    s.tdCommand wq.toNat e fun s t v m =>
      match s.tdFind t e.tdPrio v m with
      | some r => .done stOk r 0 (s.setRow r { s.row r with result := e.w 2 })
      | none => .err 0x04 s

/-- Meaning of TD_DELETE: VALID clears. -/
def execTdDelete (wq : BitVec 6) (s : State) : Ans :=
  s.commandWaits wq 0x1A (fun _ => needCore 1 trnReady) fun e s =>
    s.tdCommand wq.toNat e fun s t v m =>
      match s.tdFind t e.tdPrio v m with
      | some r => .done stOk r 0 (s.tdClear r)
      | none => .err 0x04 s

/-! ### Rows of raw tables (R160 to R162) -/

/-- WIDTH of a row command. -/
def WqEntry.rWidth (e : WqEntry) : Nat := bits (e.w 1) 23 22
/-- ROW of a row command. -/
def WqEntry.row (e : WqEntry) : Nat := bits (e.w 1) 21 0

/-- Meaning of ROW_WRITE. -/
def execRowWrite (wq : BitVec 6) (s : State) : Ans :=
  s.commandWaits wq 0x1C (fun _ => needCore 1 trnReady) fun e s => s.tdTurn wq.toNat fun s =>
    let r := s.rowWrite e.rWidth e.row fun i => e.w (2 + i)
    .err r.1 r.2

/-- Meaning of ROW_RESULT. -/
def execRowResult (wq : BitVec 6) (s : State) : Ans :=
  s.commandWaits wq 0x1D (fun _ => needCore 1 trnReady) fun e s => s.tdTurn wq.toNat fun s =>
    match s.rowTarget e.rWidth e.row with
    | .error st => .err st s
    | .ok _ => .ok (s.setRow e.row { s.row e.row with result := e.w 2 })

/-- Meaning of ROW_DELETE: a row that holds no valid entry stays as it is (R160). -/
def execRowDelete (wq : BitVec 6) (s : State) : Ans :=
  s.commandWaits wq 0x1E (fun _ => needCore 1 trnReady) fun e s => s.tdTurn wq.toNat fun s =>
    match s.rowTarget e.rWidth e.row with
    | .error st => .err st s
    | .ok _ => .ok (if (s.row e.row).valid then s.tdClear e.row else s)

/-- Meaning of ROW_READ: the entry's record goes to host memory. -/
def execRowRead (wq : BitVec 6) (hostOk : Bool) (s : State) : Ans :=
  s.commandWaits wq 0x1F (fun _ => needCore 1 trnReady) fun e s => s.tdTurn wq.toNat fun s =>
    match s.rowTarget e.rWidth e.row with
    | .error st => .err st s
    | .ok (_, w) =>
      if hostOk then .ok (s.emit (.hostWrite (e.w 2) ((s.rowRecord w e.row).flatMap (leBytes 8)))) else .err stBus s

/-! ### Security associations and keys (R84 to R88, R98, R99, R354) -/

/-- INDEX of an SA command. -/
def WqEntry.saIdx (e : WqEntry) : Nat := bits (e.w 1) 17 0

/-- Meaning of SA_INSTALL: the wrapped key and salt are unwrapped, and the SA is installed at a free index. -/
def execSaInstall (wq : BitVec 6) (s : State) : Ans :=
  s.command wq 0x20 (fun _ => needCore 2 cryReady) fun e s => s.hbmCommand 3 false (saSpan e.saIdx) fun s =>
    match Std.aesUnwrap s.kek (e.bytes 18 7) with
    | none => .err stUnwrap s
    | some p =>
      let k := fit 48 p
      match s.saInstall e.saIdx (saOfWords (fun i => e.w (2 + i)) (slice k 0 32) (beNat (slice k 32 12))) with
      | some s1 => .ok s1
      | none => .err stRefused s

/-- Meaning of SA_UPDATE: successor, pin and limit of an installed SA; a pin that R88 has no room for is refused. -/
def execSaUpdate (wq : BitVec 6) (s : State) : Ans :=
  s.command wq 0x21 (fun _ => needCore 2 cryReady) fun e s => s.hbmCommand 3 false (saSpan e.saIdx) fun s =>
    let i := e.saIdx
    let x := s.sa i
    let y := SaEntry.reserve
      { x with nextValid := bit (e.w 2) 63, pin := bit (e.w 2) 62, nextSa := bits (e.w 2) 49 32, limit := e.w 3 }
    if !x.valid then .err stRefused s
    else if y.pinned && !x.pinned && !s.pinRoom i then .err stRefused s
    else .ok (s.saWrite i y)

/-- Meaning of SA_DELETE. -/
def execSaDelete (wq : BitVec 6) (s : State) : Ans :=
  s.command wq 0x22 (fun _ => needCore 2 cryReady) fun e s => s.hbmCommand 3 false (saSpan e.saIdx) fun s => .ok (s.saDelete e.saIdx)

/-- Meaning of SA_READ: the entry's 256 bytes, key zero, go to host memory. -/
def execSaRead (wq : BitVec 6) (hostOk : Bool) (s : State) : Ans :=
  s.command wq 0x23 (fun _ => needCore 1 cryReady) fun e s => s.hbmCommand 3 true (saSpan e.saIdx) fun s =>
    if s.poisoned (saLA e.saIdx) 256 && !(mget s.cry.cache e.saIdx).isSome then .err stBus s
    else if hostOk then
      .ok (s.emit (.hostWrite (e.w 2) ((List.range 32).flatMap fun i => leBytes 8 ((s.sa e.saIdx).word i))))
    else .err stBus s

/-- The CAK of a port is stored in the keyring, over one of the same port and name; none beyond 512 (R99). -/
def Keyring.store (k : Keyring) (c : Cak) : Option Keyring :=
  let others := k.caks.filter fun x => !(x.port == c.port && x.ckn == c.ckn)
  if 512 ≤ others.length then none else some { k with caks := others ++ [c] }

/-- Meaning of CAK_LOAD. -/
def execCakLoad (wq : BitVec 6) (s : State) : Ans :=
  s.command wq 0x25 (fun _ => needMgmt 2) fun e s =>
    let n := bits (e.w 1) 13 8
    let p := bits (e.w 1) 6 0
    let ckn := (e.bytes 2 4).take n
    if n = 0 ∨ 32 < n then .err stBadArg s
    else
      match Std.aesUnwrap s.kek (e.bytes 6 5) with
      | none => .err stUnwrap s
      | some k =>
        let key := fit 32 k
        let load := fun (u : State) => { u with mka := { u.mka with caks := mset u.mka.caks p (ckn, key) } }
        if bit (e.w 1) 7 then
          match s.boot.keyring.store ⟨p, ckn, Std.aesWrap s.wrapKey key⟩ with
          | none => .err stRefused s
          | some r => .ok (load { s with boot := { s.boot with keyring := r } })
        else .ok (load s)

/-- Meaning of KEY_SET: a key of a level is installed, or cleared (R354). -/
def execKeySet (wq : BitVec 6) (s : State) : Ans :=
  s.command wq 0x48 (fun _ => needMgmt 2) fun e s =>
    let put := fun (k : Option (List Byte)) =>
      let r := s.boot.keyring
      { s with boot := { s.boot with keyring := if bit (e.w 1) 0 then { r with admin := k } else { r with oper := k } } }
    if bit (e.w 1) 1 then .ok (put none)
    else
      match Std.aesUnwrap s.kek (e.bytes 2 5) with
      | none => .err stUnwrap s
      | some k => .ok (put (some (fit 32 k)))

/-! ### Armed loads (R365, R375) -/

/-- Meaning of LOAD_ARM: it waits for its channel's pulse; a channel that another LOAD_ARM waits for is refused (log entry
44). -/
def execLoadArm (wq : BitVec 6) (s : State) : Ans :=
  s.command wq 0x30 (fun e => needCore (writeLevel e.target) (targetReady e.target)) fun e s =>
    let ch := bits (e.w 1) 35 32
    if (targetOf e.target).isNone && e.target != 0x20 then .err stBadArg s
    else if (mget s.hst.arms ch).isSome then .err stRefused s
    else
      let a : LoadArm := { wq := wq.toNat, entry := e, target := e.target, slices := e.slices, count := bits (e.w 1) 31 0
                           index := e.w 2, la := e.w 3 }
      .wait { s with hst := { s.hst with arms := mset s.hst.arms ch a } }

/-! ### BFD sessions (R376) -/

/-- The session a BFD_SET describes, over the state of one that exists. -/
def WqEntry.bfd (e : WqEntry) (old : Option BfdSession) : BfdSession :=
  let b := old.getD {}
  let tx := bits (e.w 2) 63 40
  let rx := bits (e.w 2) 39 16
  { b with myDisc := bits (e.w 1) 31 0, txUs := tx, rxUs := rx, mult := bits (e.w 2) 7 0
           poll := b.state == 3 && (b.poll || tx != b.txUs || rx != b.rxUs)
           entry := bits (e.w 3) 11 8, ipv6 := bit (e.w 3) 7, port := bits (e.w 3) 6 0
           localAddr := e.bytes 4 2, peerAddr := e.bytes 6 2 }

/-- SESSION of a BFD command. -/
def WqEntry.bfdId (e : WqEntry) : Nat := bits (e.w 1) 45 32

/-- The sum of the rates of intervals in µs exceeds 1,638,400 packets per second: the sum is kept as a fraction. -/
def ratesOver (l : List Nat) : Bool :=
  let r := l.foldl (fun (a : Nat × Nat) us => (a.1 * us + 1000000 * a.2, a.2 * us)) (0, 1)
  decide (1638400 * r.2 < r.1)

/-- Intervals of 3,300 µs to 10 s, and a detect multiplier of 2 to 255. -/
def bfdInRange (b : BfdSession) : Bool :=
  decide (3300 ≤ b.txUs) && decide (b.txUs ≤ 10000000) && decide (3300 ≤ b.rxUs) && decide (b.rxUs ≤ 10000000) &&
  decide (2 ≤ b.mult)

/-- Store a BFD session, and mirror it (Table 13-4). -/
def State.setBfd (s : State) (id : Nat) (b : BfdSession) : State :=
  ({ s with hst := { s.hst with bfd := mset s.hst.bfd id b } }).mirrorRec (.bfd id b)

/-- Set a session's state and diagnostic: a change is reported as a notice (R367, R376). -/
def State.bfdMove (s : State) (id : Nat) (b : BfdSession) (st diag : Nat) : State :=
  let s1 := s.setBfd id { b with state := st, diag := diag }
  if b.state = st then s1 else s1.bfdNotice id st diag

/-- Meaning of BFD_SET. -/
def execBfdSet (wq : BitVec 6) (s : State) : Ans :=
  s.command wq 0x38 (fun _ => needMgmt 1) fun e s =>
    let b := e.bfd (mget s.hst.bfd e.bfdId)
    let all := (mset s.hst.bfd e.bfdId b).map (·.2)
    if !bfdInRange b then .err stBadArg s
    else if ratesOver (all.map (·.txUs)) || ratesOver (all.map (·.rxUs)) then .err stRefused s
    else .ok (s.setBfd e.bfdId b)

/-- Meaning of BFD_DEL. -/
def execBfdDel (wq : BitVec 6) (s : State) : Ans :=
  s.command wq 0x39 (fun _ => needMgmt 1) fun e s =>
    match mget s.hst.bfd e.bfdId with
    | none => .err 0x04 s
    | some _ => .ok { s with hst := { s.hst with bfd := merase s.hst.bfd e.bfdId } }

/-! ### The update path (R340 to R342) -/

/-- A command of the update path ends with UPDATE_ERR and a code of Table 14-9. -/
def State.updErr (s : State) (code : Nat) : CmdAns := .done stUpdate 0 code (s.setF F.MGT_UPDATE_ERR code)

/-- A command waits for the flash, which takes one at a time. -/
def State.flashFor (s : State) (q : BitVec 6) (op : FlashOp) : CmdAns :=
  .wait { s with boot := { s.boot with flashWait := some (q.toNat, op) } }

/-- The update path is free; else the command comes again. -/
def State.flashFree (s : State) (f : State → CmdAns) : CmdAns := if s.boot.flashWait.isSome then .later s else f s

/-- Meaning of IMG_BEGIN. -/
def execImgBegin (wq : BitVec 6) (s : State) : Ans :=
  s.command wq 0x40 (fun _ => needMgmt 2) fun e s =>
    s.flashFree fun s =>
      match s.updBegin (bits (e.w 1) 63 56) (bits (e.w 1) 31 0) with
      | (0, s1) => s1.flashFor wq .erase
      | (c, s1) => s1.updErr c

/-- Meaning of IMG_BLOCK: the 4,096 bytes at the host address of W2, unless their read failed. A store's last block asks
nothing of the flash where its 64 KiB are erased (R340). -/
def execImgBlock (wq : BitVec 6) (data : Option (List Byte)) (s : State) : Ans :=
  s.command wq 0x41 (fun _ => needMgmt 2) fun e s =>
    s.flashFree fun s =>
      let off := e.w 1
      let c := s.updBlockCode off
      if c ≠ 0 then s.updErr c
      else match data with
        | none => .err stBus s
        | some b =>
          if s.updHeld off && !s.updErases off then .ok (s.updBlock off (fit 4096 b)) else s.flashFor wq (.block off (fit 4096 b))

/-- Meaning of IMG_END: RESULT is MGT_UPDATE.STATE. A good store waits for its sealed Colophon to be programmed. -/
def execImgEnd (wq : BitVec 6) (s : State) : Ans :=
  s.command wq 0x42 (fun _ => needMgmt 2) fun _ s =>
    s.flashFree fun s =>
      let c := s.updEndCode
      if c = 0x0D then s.updErr c
      else if c ≠ 0 then .done stUpdate 6 c (s.updFail c)
      else if s.boot.upd.kind = 2 then s.flashFor wq (.seal s.updSealed)
      else .done stOk s.updGood.updState 0 s.updGood

/-- IMG_START's restart, once its completion has been posted: every session closes, and the MGMT and CORE groups reset. -/
def State.updRestart (s : State) : State := s.closePcie.closeSmbus.requestMgmt

/-- Meaning of IMG_START: the Proof record is written, and the device restarts on the new content (R342). -/
def execImgStart (wq : BitVec 6) (s : State) : Ans :=
  s.onMgmt fun s =>
    let s1 := s.wqRun wq.toNat 0x43 (fun _ => needMgmt 2) fun _ s =>
      s.flashFree fun s =>
        let c := s.updStartCode
        if c ≠ 0 then s.updErr c else .ok (s.updRecord.setF F.MGT_UPDATE_STATE 0)
    if !s.started && s1.started then s1.updRestart else s1

/-- Meaning of FLASH_OP_DONE: the flash reports a program or erase done, or failed, and the command that waited for it
completes. -/
def execFlashOpDone (good : Bool) (s : State) : Ans :=
  s.onMgmt fun s =>
    match s.boot.flashWait with
    | none => s
    | some (q, op) =>
      let s1 := { s with boot := { s.boot with flashWait := none } }
      if !good then (s1.updFail 0x0E).finish q stUpdate 0 0x0E
      else
        match op with
        | .erase => s1.finish q stOk 0 0
        | .block off b => (s1.updBlock off b).finish q stOk 0 0
        | .seal c =>
          let s2 := (s1.flashPut (s1.boot.upd.target + s1.boot.upd.length - 4096) c).updGood
          s2.finish q stOk s2.updState 0

end Sys2Proof.Machine
end

