-- ==== Sys2Proof/Machine/Dma.lean ====
section
/-! DEFINITION. DMA channels, the rule on what they may address, late errors and armed loads (R371 to R375, R391). -/
namespace Sys2Proof.Machine

/-- A DMA descriptor (R371). -/
structure Desc where
  pulse : Nat
  dstFixed : Bool
  srcFixed : Bool
  dst : Nat
  src : Nat
  length : Nat
  srcAddr : Nat
  dstAddr : Nat
  deriving DecidableEq, Repr

/-- The descriptor that its words spell. -/
def descOf (l : List W64) : Desc :=
  let w := (l.getD 0 0).toNat
  { pulse := bits w 41 40, dstFixed := bit w 37, srcFixed := bit w 36, dst := bits w 35 34, src := bits w 33 32
    length := bits w 31 0, srcAddr := (l.getD 1 0).toNat, dstAddr := (l.getD 2 0).toNat }

/-- The exporter owns a channel, while its EN is set and up to the end of the export it runs (R391). -/
def State.exporterOwns (s : State) (k : Nat) : Bool :=
  s.core && (s.fb F.CNT_EXP_CFG_EN || s.cnt.exporting) && s.f F.CNT_EXP_CFG_CHANNEL == k

/-- A channel's BUSY follows from its EN and its indices. -/
def State.dmaShow (s : State) (k : Nat) : State :=
  s.setF F.DMA_CH_STATUS_BUSY (b2n (s.fb F.DMA_CH_CFG_EN k && s.f F.DMA_CH_PI_INDEX k != s.f F.DMA_CH_CI_INDEX k)) k

/-- A channel has a descriptor to run. -/
def State.dmaRuns (s : State) (k : Nat) : Bool :=
  s.pathUp .pcie && !s.fb F.HST_STATUS_HALTED && s.fb F.DMA_CH_CFG_EN k && !s.exporterOwns k &&
  s.f F.DMA_CH_PI_INDEX k != s.f F.DMA_CH_CI_INDEX k

/-- The addresses a side of a descriptor covers lie in [lo, hi). -/
def inRange (a n lo hi : Nat) : Bool := decide (lo ≤ a) && decide (a + n ≤ hi)

/-- A side of a descriptor is allowed (R371, R372). -/
def State.dmaSideOk (s : State) (k space a n : Nat) (src : Bool) : Bool :=
  let admin := s.fb F.DMA_CH_CFG_ADMIN k
  match space with
  | 0 => true
  | 1 => inRange a n 0x70000000 0x80000000 || (admin && inRange a n 0 0x80000000) ||
         (src && inRange a n 0xC0000000 0x100000000)
  | 2 => admin
  | _ => false

/-- A descriptor breaks no rule of R371 and R372. -/
def State.descAllowed (s : State) (k : Nat) (d : Desc) : Bool :=
  decide (1 ≤ d.length) && decide (d.length ≤ 2 ^ 30) &&
  s.dmaSideOk k d.src d.srcAddr (if d.srcFixed then 1 else d.length) true &&
  s.dmaSideOk k d.dst d.dstAddr (if d.dstFixed then 1 else d.length) false

/-- A descriptor addresses HBM. -/
def Desc.hbm (d : Desc) : Bool := d.src == 1 || d.dst == 1

/-- A descriptor reaches the management region before the image runs (R337). -/
def State.descEarly (s : State) (d : Desc) : Bool :=
  !s.boot.imageRun && ((d.src == 1 && decide (d.srcAddr < 0x80000000)) || d.dst == 1)

/-- A byte of management SRAM; the spec gives no map of it, so one that DMA has not written is a free value (log entry 45). -/
def State.sramByte (s : State) (a : Nat) : Byte :=
  match mget s.hst.sram a with
  | some b => b
  | none => (Config.freeWord (2 ^ 40 + a)).setWidth 8

/-- The first n bytes a descriptor moves: `host` are those read from host memory. -/
def State.descData (s : State) (d : Desc) (n : Nat) (host : List Byte) : List Byte :=
  match d.src with
  | 0 => fit n host
  | 1 => if d.srcFixed then List.replicate n ((s.hbmRead d.srcAddr 1).headD 0) else s.hbmRead d.srcAddr n
  | _ => (List.range n).map fun i => s.sramByte (if d.srcFixed then d.srcAddr else d.srcAddr + i)

/-- Write the bytes at a descriptor's destination: at a fixed address one after another. -/
def State.descWrite (s : State) (d : Desc) (b : List Byte) : State :=
  let last := b.getLast?.toList
  match d.dst with
  | 0 =>
    if d.dstFixed then b.foldl (fun u x => u.emit (.hostWrite d.dstAddr [x])) s
    else if b.isEmpty then s else s.emit (.hostWrite d.dstAddr b)
  | 1 => s.mgmtWrite d.dstAddr (if d.dstFixed then last else b)
  | _ => s.sramPut d.dstAddr (if d.dstFixed then last else b)

/-- The descriptor at CI ends marked bad (R374). -/
def State.descBad (s : State) (k : Nat) : State :=
  ((s.descStatus k (s.f F.DMA_CH_CI_INDEX k) 0x02).dmaBad k).dmaShow k

/-- A pulse reaches its consumer: the table loader (1) or the TD bulk writer (2), where a LOAD_ARM of the channel waits
(R375). -/
def State.descPulse (s : State) (k pulse : Nat) : State :=
  match mget s.hst.arms k with
  | some a =>
    if pulse = (if a.target = 0x20 then 2 else 1) then
      { s with hst := { s.hst with arms := mset s.hst.arms k { a with pulsed := true } } }
    else s
  | none => s

/-- The last descriptor of a channel to complete good, by its index, may still be followed by a late error (R375); the
exporter's copy has none. -/
def State.lateOpen (s : State) (k : Nat) (idx : Option Nat) : State :=
  { s with hst := { s.hst with late := mset s.hst.late k idx } }

/-- The exporter's descriptor is in progress on a channel: its snapshot is done. It runs on when the freeze expires, and
stands idle while a Doublet member is not principal (R391). -/
def State.exportRuns (s : State) (k : Nat) : Bool :=
  s.coreLive && s.exporterRuns && s.exporterOwns k && s.cnt.exporting && !s.cnt.pulsed && !s.cnt.snapAsked && s.cnt.snapping.isNone &&
  s.pathUp .pcie && !s.fb F.HST_STATUS_HALTED

/-- Where the exporter copies from, and how many bytes. -/
def State.exportRange (s : State) : Nat × Nat :=
  (0xC0000000 + s.f F.CNT_EXP_RANGE_OFFSET * 32, s.f F.CNT_EXP_RANGE_LENGTH * 32)

/-- An export whose descriptor ended bad gives up: EXP_LATE sets, SEQ stays, and the freeze ends (log entry 46). -/
def State.exportBad (s : State) (k : Nat) : State :=
  let s1 := (s.sat F.DMA_CH_STATUS_BAD 1 k).raiseD (64 + k) (BitVec.ofNat 64 (s.f F.DMA_CH_CI_INDEX k))
  let s2 := { s1 with cnt := { s1.cnt with exporting := false, pulsed := false, expired := false } }
  ((s2.setF F.CNT_STATUS_EXP_LATE 1).setF F.CNT_EXP_STATUS_BUSY 0).snapshotRelease

/-- The bytes a descriptor reads from HBM. -/
def Desc.hbmLen (d : Desc) : Nat := if d.srcFixed then 1 else d.length

/-- How many bytes from LA on can be read before the first poisoned burst, at most n. -/
def State.cleanLen (s : State) (la n : Nat) : Nat :=
  (s.hbm.poison.filter fun b => decide (la / 32 ≤ b)).foldl (fun a b => Nat.min a (b * 32 - la)) n

/-- How many of a descriptor's first n bytes move before a poisoned burst of its source ends it (R374). -/
def State.cleanMove (s : State) (d : Desc) (n : Nat) : Nat :=
  if d.src = 1 ∧ s.poisoned d.srcAddr d.hbmLen then (if d.srcFixed then 0 else s.cleanLen d.srcAddr n) else n

/-- A descriptor's data has moved, but for what a poisoned burst of its source ends: the bytes before it stay written, and the
descriptor is marked bad (R374). -/
def State.descMove (s : State) (k : Nat) (d : Desc) (host : List Byte) : State :=
  if d.src = 1 ∧ s.poisoned d.srcAddr d.hbmLen then
    (s.descWrite d (s.descData d (s.cleanMove d d.length) host)).descBad k
  else
    let ci := s.f F.DMA_CH_CI_INDEX k
    let s1 := (s.descWrite d (s.descData d d.length host)).descStatus k ci 0x01
    (((s1.setF F.DMA_CH_CI_INDEX ((ci + 1) % 2 ^ 32) k).descPulse k d.pulse).lateOpen k (some ci)).dmaShow k

/-- Meaning of DMA_DESCRIPTOR_COMPLETE: the descriptor at a channel's CI, as read from host memory, has moved its data; one
that breaks R371 or R372 is marked bad before its first byte. On the exporter's channel it is the exporter's copy. HBM must be
ready for what addresses it (R243); a transfer's bursts fall in many picas (log entry 92). -/
def execDmaDescriptorComplete (channel : BitVec 4) (desc : List W64) (host : List Byte) (s : State) : Ans :=
  s.onMgmt fun s =>
    let k := channel.toNat
    let d := descOf desc
    let x := s.exportRange
    if s.exportRuns k then
      if s.f F.PWR_STATUS_DEVICE = 3 then s.trigDevice
      else if !s.hbmReady then s
      else if s.poisoned x.1 x.2 then s.exportBad k
      else
        let s1 := (s.wakeSpan x.1 x.2).emit (.hostWrite (s.rd .CNT_EXP_ADDR 0 0 0).toNat (s.hbmRead x.1 x.2))
        { s1 with cnt := { s1.cnt with pulsed := true } }.lateOpen k none
    else if !s.dmaRuns k then s
    else if !s.descAllowed k d || s.descEarly d then s.descBad k
    else if d.hbm && !s.coreLive then s
    else if d.hbm && s.f F.PWR_STATUS_DEVICE == 3 then s.trigDevice
    else if d.hbm && !s.hbmReady then s
    else (if d.src = 1 then s.wakeSpan d.srcAddr d.hbmLen else s).descMove k d host

/-- Meaning of DMA_BUS_ERROR: after `moved` bytes a bus error ends the descriptor; what was written stays (R374). -/
def execDmaBusError (channel : BitVec 4) (desc : List W64) (host : List Byte) (moved : Nat) (s : State) : Ans :=
  s.onMgmt fun s =>
    let k := channel.toNat
    let d := descOf desc
    if s.exportRuns k then s.exportBad k
    else if !s.dmaRuns k then s
    else if !s.descAllowed k d || s.descEarly d || (d.hbm && !s.coreLive) then s.descBad k
    else if d.hbm && s.f F.PWR_STATUS_DEVICE == 3 then s.trigDevice
    else if d.hbm && !s.hbmReady then s
    else
      let n := Nat.min moved d.length
      let s1 := if d.src = 1 then s.wakeSpan d.srcAddr d.hbmLen else s
      (s1.descWrite d (s1.descData d (s1.cleanMove d n) host)).descBad k

/-- Meaning of DMA_LATE_ERROR: an error of the last beat is reported after the completion: STATUS 0x03 goes to the descriptor
that completed (R375). -/
def execDmaLateError (channel : BitVec 4) (s : State) : Ans :=
  s.onMgmt fun s =>
    let k := channel.toNat
    match mget s.hst.late k with
    | none => s
    | some x =>
      let s1 := { s with hst := { s.hst with late := merase s.hst.late k } }
      let s2 := match x with | some idx => s1.descStatus k idx 0x03 | none => s1
      (s2.setF F.DMA_CH_STATUS_LATE 1 k).raiseD (80 + k) (BitVec.ofNat 64 (x.getD (s1.f F.DMA_CH_CI_INDEX k)))

/-- The effect of clearing a channel's EN: the descriptor in progress stops and is marked bad (DMA_CH_CFG). -/
def State.dmaDisable (s : State) (k : Nat) : State :=
  if s.fb F.DMA_CH_STATUS_BUSY k then s.descBad k else s

/-- Write raw TD rows of an armed load in order (target 0x20): each has W1 of ROW_WRITE, then the record. -/
def State.rowPuts : List (List Nat) → Nat → State → Nat × Nat × State
  | [], n, s => (stOk, n, s)
  | w :: rest, n, s =>
    match s.rowWrite (bits (w.getD 0 0) 23 22) (bits (w.getD 0 0) 21 0) (fun i => w.getD (1 + i) 0) with
    | (st, s1) => if st = stOk then rowPuts rest (n + 1) s1 else (st, n, s)

/-- An armed load waits in the maintenance port's FIFO, once and as one operation (R162, log entry 91). -/
def State.armWait (s : State) (ch : Nat) (rows : List Nat) : State :=
  if s.trn.fifo.any fun o => match o with | .arm c _ => c == ch | _ => false then s else s.tdPush (.arm ch rows)

/-- An armed load of TD rows at its turn at the maintenance port; else it waits, and is applied once it comes first. -/
def State.armTurn (s : State) (ch : Nat) (rows : List Nat) (f : State → State) : State :=
  match s.trn.fifo with
  | [] => f s
  | .arm c _ :: rest => if c = ch then f (s.setTdFifo rest) else s.armWait ch rows
  | _ => s.armWait ch rows

/-- The armed entries are read and applied, and LOAD_ARM completes with what TBL_WRITE would answer (R365, R375). -/
def State.armApply (s : State) (k : Nat) (a : LoadArm) (n : Nat) : State :=
  let es := cutEntries n a.count (s.hbmRead a.la (a.count * n))
  let disarm := fun (u : State) => { u with hst := { u.hst with arms := merase u.hst.arms k } }
  let s0 := s.wakeSpan a.la (a.count * n)
  if a.target = 0x20 then
    s0.armTurn k (s0.tdDiff (s0.rowPuts es 0).2.2) fun s =>
      let r := (disarm s).rowPuts es 0
      r.2.2.finish a.wq r.1 r.2.1 0
  else
    let l := tblSpans a.target a.index a.count
    let ask := if l.isEmpty then (true, s0) else s0.hbmAsk 2 false l
    if ask.1 then
      let r := (disarm ask.2).tblPuts a.target a.slices es a.index 0
      r.2.2.finish a.wq r.1 r.2.1 0
    else ask.2

/-- Meaning of ARMED_LOAD_APPLY: 2 µs after the pulse the armed entries are read from their LA and applied as TBL_WRITE would;
a late error or poisoned data applies nothing (R375). `bad` says that the read of the entries came back uncorrectable. Before
HBM's READY, while no burst is left for entries that lie in HBM, and behind other operations of TD, it waits and comes again
(R162, R229, R243). -/
def execArmedLoadApply (channel : BitVec 4) (s : State) (bad : Bool := false) : Ans :=
  s.onMgmt fun s =>
    let k := channel.toNat
    match mget s.hst.arms k with
    | none => s
    | some a =>
      let done := fun st =>
        { s with hst := { s.hst with arms := merase s.hst.arms k }
                 trn := { s.trn with fifo := s.trn.fifo.filter fun o => match o with | .arm c _ => c != k | _ => true } }.finish
          a.wq st 0 0
      let n := match targetOf a.target with | some x => x.bytes | none => 128
      if !a.pulsed then s
      else if s.f F.PWR_STATUS_DEVICE = 3 then s.trigDevice
      else if s.fb F.DMA_CH_STATUS_LATE k then done stBus
      else if !s.coreLive || !targetReady a.target s || (a.target == 0x20 && !trnReady s) then done stNotReady
      else if !s.hbmReady then s
      else if bad || s.poisoned a.la (a.count * n) then done stBus
      else s.armApply k a n

end Sys2Proof.Machine
end

