-- ==== Sys2Proof/Machine/Punt.lean ====
section
/-! DEFINITION. Punt and inject rings, learning notices and the BFD service (R323, R367 to R370, R376). -/
namespace Sys2Proof.Machine

/-! ### Punt rings (R368) -/

/-- Bytes of a slot by the SLOT field. -/
def slotBytes (n : Nat) : Nat := 2048 * 2 ^ n

/-- The header of Table 15-11 for a frame with `stored` of its bytes in the slot. -/
def puntHeader (p : Pkt) (stored : Nat) : List Nat :=
  let reason := match p.kind with | .punt _ r => r | _ => 0
  [b2n (decide (stored < p.bytes.length)) * 2 ^ 63 + b2n p.copy * 2 ^ 62 + p.port % 128 * 2 ^ 42 + reason * 2 ^ 32
     + p.bytes.length % 65536 * 2 ^ 16 + stored,
   p.rxSec * 2 ^ 16, p.rxNs * 2 ^ 32, p.entered, p.user * 2 ^ 32 + p.rxSa, 0, 0, 0]

/-- A punt ring has no free slot. -/
def State.puntFull (s : State) (r : Nat) : Bool :=
  decide (2 ^ s.f F.HST_PUNT_CFG_SIZE r ≤ idxDiff (s.f F.HST_PUNT_PI_INDEX r) (s.f F.HST_PUNT_CI_INDEX r))

/-- A punt ring belongs to the resident services (R370). -/
def State.puntOwned (s : State) (r : Nat) : Bool := s.fb F.HST_PUNT_CFG_OWNER r

/-- The second member of a Doublet drops its punts to the host (Table 13-8). -/
def State.secondPunt (s : State) : Bool := s.doublet && !s.principal && !s.fb F.RED_CTRL_SECOND_PUNT

/-- A frame is placed in a slot: a ring of the resident services keeps it in management SRAM, a host ring in host memory; then
PI advances, its reason record counts it, and the vector fires with VECTOR_EN (R368, R385). -/
def State.puntPlace (s : State) (r : Nat) (p : Pkt) : State :=
  let slot := slotBytes (s.f F.HST_PUNT_CFG_SLOT r)
  let pi := s.f F.HST_PUNT_PI_INDEX r
  let body := p.bytes.take (slot - 64)
  let a := s.f F.HST_PUNT_ADDR_ADDR r * 4096 + pi % 2 ^ s.f F.HST_PUNT_CFG_SIZE r * slot
  let s1 :=
    if s.puntOwned r then
      { s with hst := { s.hst with resPunt := mset s.hst.resPunt r (mgetD s.hst.resPunt r [] ++ [(p.port, body)]) } }
    else s.emit (.hostWrite a ((puntHeader p body.length).flatMap (leBytes 8) ++ body))
  let s2 := s1.setF F.HST_PUNT_PI_INDEX ((pi + 1) % 2 ^ 32) r
  let s3 := match p.kind with
    | .punt _ c => s2.post spReason c [1, p.bytes.length + 4]
    | _ => s2
  let s4 := if s3.fb F.HST_PUNT_CFG_VECTOR_EN r then s3.trigger (s3.f F.HST_PUNT_CFG_VECTOR r) else s3
  s4.releasePkt p

/-- A frame that a punt node released is placed in its ring, or dropped where a link entry of its chains is lost, where the
ring is off or full, or where the device is a second member that punts nothing (R216, R323, R368). -/
def State.puntTake (s : State) (r : Nat) (p : Pkt) : State :=
  if s.pktBad p then s.dropPkt 0x63 p
  else if !s.puntOwned r && s.secondPunt then s.dropPkt 0xA5 p
  else if !s.puntOwned r && !s.fb F.HST_PUNT_CFG_EN r then (s.sat F.HST_PUNT_DROPS_OFF 1 r).dropPkt 0xB1 p
  else if s.puntFull r then (s.sat F.HST_PUNT_DROPS_FULL 1 r).dropPkt 0xB0 p
  else s.puntPlace r p

/-- Meaning of PUNT_RING_WRITE. A halt stops the rings (R363). -/
def execPuntRingWrite (ring : BitVec 4) (s : State) : Ans :=
  s.onCore fun s =>
    if s.fb F.HST_STATUS_HALTED then s
    else match mgetD s.que.toPunt ring.toNat [] with
    | [] => s
    | p :: rest => ({ s with que := { s.que with toPunt := msetD s.que.toPunt ring.toNat [] rest } }).puntTake ring.toNat p

/-! ### Inject rings (R369) -/

/-- The descriptor of an inject slot: its port, the length of its frame, and the fields for the program. -/
def injectDesc (slot : List Byte) : Nat × Nat × Inject :=
  let w0 := leNat (slice slot 0 8)
  let w1 := leNat (slice slot 8 8)
  (bits w0 22 16, bits w0 15 0,
    { tsTag := bits w0 63 48, domain := bits w0 47 32, tsMode := bits w0 29 28, entry := bits w0 27 24
      user := BitVec.ofNat 64 w1 })

/-- CI of an inject ring advances. -/
def State.injDone (s : State) (r : Nat) : State :=
  s.setF F.HST_INJ_CI_INDEX ((s.f F.HST_INJ_CI_INDEX r + 1) % 2 ^ 32) r

/-- A frame of a slot is admitted to its slice as the FIFO has room, else the ring waits. Its receive time is a free value
(log entry 2). -/
def State.injAdmit (s : State) (r port : Nat) (j : Inject) (frame : List Byte) (took : State → State) : State :=
  let sl := port / 16
  if s.gated sl then s.trigGroup sl
  else if !s.fifoRoom sl frame.length then s
  else
    let a := s.fresh
    let f : RxFrame := { port := port, bytes := frame, sec := a.1.toNat / 2 ^ 16, ns := a.1.toNat % 2 ^ 30, inject := some j }
    took ((a.2.toFifo f).injDone r)

/-- A host slot is taken: a bad LENGTH drops the frame under HST_INJ_BAD. -/
def State.injHost (s : State) (r : Nat) (slot : List Byte) : State :=
  let d := injectDesc slot
  let size := slotBytes (s.f F.HST_INJ_CFG_SLOT r)
  if d.2.1 < 60 ∨ size - 32 < d.2.1 then (s.drop 0xB2 d.2.1 d.1).injDone r
  else s.injAdmit r d.1 d.2.2 (fit d.2.1 (slice slot 32 d.2.1)) id

/-- The oldest slot of the resident services' ring is taken. -/
def State.injResident (s : State) (r : Nat) : State :=
  match mgetD s.hst.resInj r [] with
  | [] => s
  | x :: rest =>
    let j : Inject := { tsTag := 0, domain := x.port, tsMode := 0, entry := x.entry, user := 0 }
    s.injAdmit r x.port j x.frame fun s => { s with hst := { s.hst with resInj := msetD s.hst.resInj r [] rest } }

/-- Meaning of INJECT_SLOT_TAKE: the ring's next slot is taken, with the bytes that host memory holds there. A halt stops the
rings (R363). -/
def execInjectSlotTake (ring : BitVec 4) (slot : List Byte) (s : State) : Ans :=
  s.onCore fun s =>
    let r := ring.toNat
    if s.fb F.HST_STATUS_HALTED then s
    else if s.fb F.HST_INJ_CFG_OWNER r then s.injResident r
    else if s.fb F.HST_INJ_CFG_EN r && s.f F.HST_INJ_CI_INDEX r != s.f F.HST_INJ_PI_INDEX r then s.injHost r slot
    else s

/-! ### Learning notices (R139, R367) -/

/-- Meaning of LEARN_NOTICE_FORWARD: mcore2 takes the oldest notice of the learning ring and posts it to the notice CQ, with
an extension entry where the table's keys are longer than 64 bits. -/
def execLearnNoticeForward (s : State) : Ans :=
  s.onMgmt fun s =>
    match s.hst.learned with
    | [] => s
    | n :: rest =>
      ({ s with hst := { s.hst with learned := rest } }).notify
        (learnDetail (n.kind + 1) n.table n.store n.cam n.wide n.idx) (n.key % 2 ^ 64) n.result
        (if n.wide then some (n.key / 2 ^ 64 % 2 ^ 64, n.key / 2 ^ 128) else none)

/-! ### BFD (R370, R376) -/

/-- A BFD control packet as RFC 5880 lays it out. -/
structure BfdPkt where
  vers : Nat
  diag : Nat
  state : Nat
  poll : Bool
  final : Bool
  auth : Bool
  demand : Bool
  multi : Bool
  mult : Nat
  length : Nat
  myDisc : Nat
  yourDisc : Nat
  tx : Nat
  rx : Nat
  deriving DecidableEq, Repr

/-- The fields of a UDP payload; none below 24 bytes. -/
def bfdFields (b : List Byte) : Option BfdPkt :=
  if b.length < 24 then none
  else
    let g := fun o n => beNat (slice b o n)
    let v := g 0 1
    let f := g 1 1
    some { vers := v / 32, diag := v % 32, state := f / 64, poll := bit f 5, final := bit f 4, auth := bit f 2
           demand := bit f 1, multi := bit f 0, mult := g 2 1, length := g 3 1, myDisc := g 4 4, yourDisc := g 8 4
           tx := g 12 4, rx := g 16 4 }

/-- A single-hop BFD packet in a frame: its family, source and destination address in 16 bytes, and UDP payload (RFC 5881:
UDP port 3784, TTL or hop limit 255). -/
def bfdFrame (b : List Byte) : Option (Bool × List Byte × List Byte × List Byte) :=
  let et := etherOff b
  let ip := et + 2
  let udp := fun (o : Nat) => if be16 b (o + 2) = 3784 then some (slice b (o + 8) (be16 b (o + 4) - 8)) else none
  let pad := fun (a : List Byte) => List.replicate 12 (0 : Byte) ++ a
  if be16 b et = 0x0800 then
    let n := beNat (slice b ip 1) % 16 * 4
    if beNat (slice b (ip + 8) 1) = 255 ∧ beNat (slice b (ip + 9) 1) = 17 then
      (udp (ip + n)).map fun u => (false, pad (slice b (ip + 12) 4), pad (slice b (ip + 16) 4), u)
    else none
  else if be16 b et = 0x86DD then
    if beNat (slice b (ip + 7) 1) = 255 ∧ beNat (slice b (ip + 6) 1) = 17 then
      (udp (ip + 40)).map fun u => (true, slice b (ip + 8) 16, slice b (ip + 24) 16, u)
    else none
  else none

/-- The checks RFC 5880 makes of a packet before it selects a session. -/
def BfdPkt.good (p : BfdPkt) (len : Nat) : Bool :=
  p.vers == 1 && decide (24 ≤ p.length) && decide (p.length ≤ len) && p.mult != 0 && !p.multi && p.myDisc != 0 &&
  (p.yourDisc != 0 || p.state ≤ 1)

/-- The session a packet belongs to: by its own discriminator, or while that is 0 by port and addresses. -/
def State.bfdFor (s : State) (port : Nat) (v6 : Bool) (src dst : List Byte) (p : BfdPkt) : Option (Nat × BfdSession) :=
  s.hst.bfd.find? fun kv =>
    if p.yourDisc ≠ 0 then kv.2.myDisc == p.yourDisc
    else kv.2.port == port && kv.2.ipv6 == v6 &&
      (if v6 then kv.2.peerAddr == src && kv.2.localAddr == dst
       else kv.2.peerAddr.drop 12 == src.drop 12 && kv.2.localAddr.drop 12 == dst.drop 12)

/-- The state and diagnostic after a packet with the peer's state (RFC 5880, section 6.8.6): 0 AdminDown, 1 Down, 2 Init,
3 Up. -/
def bfdNext (st diag peer : Nat) : Nat × Nat :=
  if peer = 0 then (if st = 1 then (1, diag) else (1, 3))
  else match st with
    | 1 => if peer = 1 then (2, 0) else if peer = 2 then (3, 0) else (1, diag)
    | 2 => if 2 ≤ peer then (3, 0) else (2, diag)
    | _ => if peer = 1 then (1, 3) else (3, diag)

/-- The control packet of a session, with the Poll or the Final bit (RFC 5880, section 4.1). -/
def bfdPacket (b : BfdSession) (final : Bool) : List Byte :=
  let tx := if b.state = 3 then b.txUs else Nat.max 1000000 b.txUs
  beBytes 1 (32 + b.diag) ++ beBytes 1 (b.state * 64 + b2n (b.poll && !final) * 32 + b2n final * 16) ++ beBytes 1 b.mult ++
  beBytes 1 24 ++ beBytes 4 b.myDisc ++ beBytes 4 b.yourDisc ++ beBytes 4 tx ++ beBytes 4 b.rxUs ++ beBytes 4 0

/-- A UDP datagram under a pseudo-header: its checksum makes the ones'-complement sum of both all ones (RFC 768, RFC 8200). -/
def udpDatagram (pseudo : List Byte) (src dst : Nat) (payload : List Byte) : List Byte :=
  let n := 8 + payload.length
  let d := beBytes 2 src ++ beBytes 2 dst ++ beBytes 2 n ++ [0, 0] ++ payload
  splice d 6 (beBytes 2 (65535 - onesSum (pseudo ++ [0, 17] ++ beBytes 2 n ++ d)))

/-- A control packet in its frame: single hop over IPv4 or IPv6 with TTL or hop limit 255, between the session's addresses,
from a UDP source port of 49,152 or more to port 3784 (R376, RFC 5881). -/
def bfdEncap (v6 : Bool) (own peer payload : List Byte) : List Byte :=
  let macs := beBytes 12 (Config.bfdMacs own peer).toNat
  let src := 49152 + (Config.bfdPort own peer).toNat
  let flow := (Config.bfdFlow own peer).toNat
  if v6 then
    let u := udpDatagram (own ++ peer) src 3784 payload
    macs ++ [0x86, 0xDD] ++ beBytes 4 (6 * 2 ^ 28 + flow) ++ beBytes 2 u.length ++ [17, 255] ++ own ++ peer ++ u
  else
    let a := own.drop 12
    let b := peer.drop 12
    let u := udpDatagram (a ++ b) src 3784 payload
    let h := [0x45, BitVec.ofNat 8 flow] ++ beBytes 2 (20 + u.length) ++ beBytes 2 (flow / 256) ++ [0, 0, 255, 17, 0, 0] ++ a ++ b
    macs ++ [0x08, 0x00] ++ splice h 10 (beBytes 2 (ipChecksum h)) ++ u

/-- The inject ring of the resident services: the lowest that they own. -/
def State.residentRing (s : State) : Option Nat := (List.range 16).find? fun r => s.fb F.HST_INJ_CFG_OWNER r

/-- The service sends a packet of a session through its inject ring; without a ring, or with a full one, none goes. -/
def State.bfdSend (s : State) (b : BfdSession) (final : Bool) : State :=
  match s.residentRing with
  | none => s
  | some r =>
    let l := mgetD s.hst.resInj r []
    if 2 ^ s.f F.HST_INJ_CFG_SIZE r ≤ l.length then s
    else
      let f := bfdEncap b.ipv6 b.localAddr b.peerAddr (bfdPacket b final)
      let x : InjSlot := { port := b.port, entry := b.entry, frame := f }
      let s1 := { s with hst := { s.hst with resInj := mset s.hst.resInj r (l ++ [x]) } }
      (s1.setF F.HST_INJ_PI_INDEX ((s1.f F.HST_INJ_PI_INDEX r + 1) % 2 ^ 32) r).emit (.resident r f)

/-- This member runs the BFD sessions (Table 13-8). -/
def State.runsBfd (s : State) : Bool := !s.doublet || s.principal

/-- A packet of a session is taken: discriminator, state, timers, the end of a poll, and the answer to one. -/
def State.bfdTake (s : State) (id : Nat) (b : BfdSession) (p : BfdPkt) : State :=
  let b1 := { b with yourDisc := p.myDisc, peerState := p.state, peerTxUs := p.tx, peerRxUs := p.rx, peerMult := p.mult
                     poll := b.poll && !p.final }
  let n := bfdNext b.state b.diag p.state
  let b2 := { b1 with state := n.1, diag := n.2 }
  if b.state = 0 then s
  else
    let s1 := if b2 = b then s else s.bfdMove id { b1 with state := b.state } n.1 n.2
    if p.poll then s1.bfdSend b2 true else s1

/-- Meaning of BFD_PACKET_RECEIVE: the oldest frame of a resident punt ring goes to its session. A frame that the service does
not recognise is dropped under HST_RESIDENT_DROP, and so is one with the A bit, which has a count of its own. -/
def execBfdPacketReceive (ring : BitVec 4) (s : State) : Ans :=
  s.onMgmt fun s =>
    let r := ring.toNat
    match mgetD s.hst.resPunt r [] with
    | [] => s
    | (port, f) :: rest =>
      let s1 := ({ s with hst := { s.hst with resPunt := msetD s.hst.resPunt r [] rest } }).setF F.HST_PUNT_CI_INDEX
        ((s.f F.HST_PUNT_CI_INDEX r + 1) % 2 ^ 32) r
      let no := s1.drop 0xB3 f.length port
      match bfdFrame f with
      | none => no
      | some (v6, src, dst, u) =>
        match bfdFields u with
        | none => no
        | some p =>
          if !s1.runsBfd || !p.good u.length then no
          else if p.auth then { no with hst := { no.hst with bfdAuthDrops := no.hst.bfdAuthDrops + 1 } }
          else match s1.bfdFor port v6 src dst p with
            | none => no
            | some (id, b) => s1.bfdTake id b p

/-- Meaning of BFD_TRANSMIT_TIMER: a session's interval is over and the service sends a packet, on the member that runs the
sessions. -/
def execBfdTransmitTimer (session : BitVec 14) (s : State) : Ans :=
  s.onMgmt fun s =>
    match mget s.hst.bfd session.toNat with
    | some b => if s.runsBfd then s.bfdSend b false else s
    | none => s

/-- Meaning of BFD_DETECT_TIMEOUT: a session in Init or Up goes Down with the diagnostic that its detect time is over. -/
def execBfdDetectTimeout (session : BitVec 14) (s : State) : Ans :=
  s.onMgmt fun s =>
    match mget s.hst.bfd session.toNat with
    | some b =>
      if s.runsBfd && decide (2 ≤ b.state) then s.bfdMove session.toNat { b with yourDisc := 0 } 1 1 else s
    | none => s

end Sys2Proof.Machine
end

