-- ==== Sys2Proof/Machine/Access.lean ====
section
/-! DEFINITION. Register access (R5 to R9, R38, R39, R351 to R353, R397): what an offset names, who may reach it, the die
queues, what a read returns and does, and what a write changes, refuses and starts. -/
namespace Sys2Proof.Machine

/-! ### Offsets (R351) -/

/-- The index of a copy at distance d with a stride: none beyond the count. -/
def strideOf (n st d : Nat) : Option (Nat × Nat) :=
  if n ≤ 1 ∨ st = 0 then some (0, d) else if d / st < n then some (d / st, d % st) else none

/-- The copy of a register that an offset names, and whether it is the high word of a 64-bit one. -/
def Reg.copyAt (r : Reg) (a : Nat) : Option (Reg × Nat × Nat × Nat × Bool) :=
  let m := r.info
  if a < m.base then none
  else
    (strideOf m.n1 m.s1 (a - m.base)).bind fun x =>
      (strideOf m.n2 m.s2 x.2).bind fun y =>
        (strideOf m.n3 m.s3 y.2).bind fun z =>
          if z.2 = 0 then some (r, x.1, y.1, z.1, false)
          else if z.2 = 4 ∧ m.bits = 64 then some (r, x.1, y.1, z.1, true)
          else none

/-- The register at an offset. TPL_RETIRE and the second row of TPL_LANE_STAT share one: a write reaches the first, a read
the second (log entry 10). -/
def regAt (a : Nat) (write : Bool) : Option (Reg × Nat × Nat × Nat × Bool) :=
  if a = 0x1040020 ∧ write then some (.TPL_RETIRE, 0, 0, 0, false)
  else (Reg.ofBlock (a / 2 ^ 18)).findSome? fun r => r.copyAt a

/-- The die of an offset. -/
def dieOf (a : Nat) : Die := match a / 2 ^ 24 % 4 with | 0 => .fd | 1 => .qd | 2 => .td | _ => .mgmt

/-! ### Levels (Table 15-4) -/

/-- The registers that answer without a session. -/
def Reg.sessionFree (r : Reg) : Bool :=
  r == .HST_ID || r == .HST_SERIAL || r == .HST_SESS_CMD || r == .HST_SESS_STATUS || r == .HST_SESS_DATA

/-- The PPE registers an operator may write: those of the performance counters. -/
def Reg.counters (r : Reg) : Bool :=
  r == .PPE_PC_GLOBAL || r == .PPE_PC_CYCLE || r == .PPE_PC_CFG || r == .PPE_PC_VAL || r == .PPE_PC_SNAP ||
  r == .PPE_PC_SAMPLE || r == .PPE_PC_STATUS

/-- The block of a register, as bits [25:18] of its offset. -/
def Reg.block (r : Reg) : Nat := r.info.base / 2 ^ 18

/-- The level a write asks for. -/
def Reg.writeLevel (r : Reg) : Nat :=
  if r.sessionFree then 0
  else match r.block with
    | 0x01 | 0x04 | 0x05 | 0x80 | 0x43 | 0x44 | 0x45 | 0x52 | 0xC3 | 0xC8 | 0xC2 => 1
    | 0x06 => if r.counters then 1 else 2
    | 0xC1 => if r == .HST_CTRL || r == .HST_SMB_CFG then 2 else 1
    | _ => 2

/-- The level a read asks for. -/
def Reg.readLevel (r : Reg) : Nat := if r.sessionFree then 0 else 1

/-- The registers of work queues, rings and DMA channels, which SMBus does not reach (R377). -/
def Reg.ringSide (r : Reg) : Bool :=
  r.block == 0xC2 || (r.block == 0xC1 && decide (0x3041000 ≤ r.info.base))

/-! ### Waiting (R38, R397) -/

/-- The group a per-slice register of FD belongs to. -/
def Reg.sliceOf (r : Reg) (i : Nat) : Option Nat :=
  if r == .PPE_USER then some (i / 4) else if r.info.base < 0x1000000 && r.info.n1 == 8 then some i else none

/-- The register's clock runs and its group is out of reset. -/
def State.regLive (s : State) (r : Reg) (i : Nat) : Bool :=
  if !coreAddr r.info.base then true
  else
    s.core && decide (s.f F.PWR_STATUS_DEVICE < 3) &&
    (match r.sliceOf i with | some g => !s.gated g | none => true)

/-- An offset's part runs; an unassigned offset of a die follows the die. -/
def State.addrLive (s : State) (a : Nat) : Bool :=
  match regAt a false with
  | some (r, i, _, _, _) => s.regLive r i
  | none => !coreAddr a || (s.core && decide (s.f F.PWR_STATUS_DEVICE < 3))

/-- A die's register queue; the management die has none. -/
def State.dieQ (s : State) (d : Die) : List HeldAccess :=
  match d with | .fd => s.bus.fdQ | .qd => s.bus.qdQ | .td => s.bus.tdQ | .mgmt => []

/-- Store a die's register queue. -/
def State.setDieQ (s : State) (d : Die) (l : List HeldAccess) : State :=
  match d with
  | .fd => { s with bus := { s.bus with fdQ := l } }
  | .qd => { s with bus := { s.bus with qdQ := l } }
  | .td => { s with bus := { s.bus with tdQ := l } }
  | .mgmt => s

/-! ### What a read returns (R7, R9) -/

/-- The user page's counter n of cluster k (R201). -/
def State.userCounter (s : State) (k n : Nat) : W64 :=
  if n = 0 then pcWord (s.f F.PPE_PC_CYCLE_OVF (k / 4) (k % 4)) (s.f F.PPE_PC_CYCLE_CYCLES (k / 4) (k % 4))
  else if s.fb F.PPE_PC_CFG_USER_READ (k / 4) (k % 4) (n - 1) then
    pcWord (s.f F.PPE_PC_VAL_OVF (k / 4) (k % 4) (n - 1)) (s.f F.PPE_PC_VAL_VALUE (k / 4) (k % 4) (n - 1))
  else 0

/-- SHP_L0_HELD of 32 nodes. -/
def State.heldWord (s : State) (i : Nat) : Nat :=
  (List.range 32).foldl (fun a j => if 32 * i + j < 144 ∧ s.l0Held (32 * i + j) then a + 2 ^ j else a) 0

/-- The value a register shows a path: what it stores, with the fields that follow the state. -/
def State.shown (s : State) (p : Path) (r : Reg) (i j k : Nat) : W64 :=
  let v := s.rd r i j k
  match r with
  | .TIM_PICA_NUM => BitVec.ofNat 64 s.pica.num
  | .TIM_TOD_SEC => BitVec.ofNat 64 s.tb.secNow
  | .TIM_TOD_NS => BitVec.ofNat 64 s.tb.nsNow
  | .EVT_STATUS => F.EVT_STATUS_LOG_COUNT.put v s.evt.log.length
  | .EVT_SUMMARY => BitVec.ofNat 64 s.evtSummary
  | .CNT_CACHE => F.CNT_CACHE_USED.put v s.cnt.cache.length
  | .CRY_CACHE => F.CRY_CACHE_PINNED.put v s.pinnedCount
  | .RED_STATUS => F.RED_STATUS_ARB_FAULT.put v (b2n s.arbFault)
  | .MGT_STATUS => F.MGT_STATUS_HEALTHY.put v (b2n s.healthy)
  | .HST_SESS_STATUS => BitVec.ofNat 64 (s.sess p).status
  | .HST_SESS_DATA => BitVec.ofNat 64 ((s.sess p).data.getD i 0).toNat
  | .PPE_USER => s.userCounter i j
  | .XMT_FENCE_OLDEST => BitVec.ofNat 64 s.oldestWord
  | .SHP_L0_HELD => BitVec.ofNat 64 (s.heldWord i)
  | .FAB_GROUP_STATUS => F.FAB_GROUP_STATUS_SLOTS.put v (s.groupSlots i)
  | _ => v

/-- The key of a register word on a path, for latches and held words. -/
def busKey (p : Path) (a : Nat) : Nat := (match p with | .pcie => 0 | .smbus => 1 | .fw => 2) * 2 ^ 28 + a

/-- A register's value and the state after the read: RC fields clear, FIFOs lose their oldest entry, MIN restarts at FREE,
and TIM_TOD.NS latches the seconds (R7, R51, R53, R105, R200, R223, R383). -/
def State.readReg (s : State) (p : Path) (r : Reg) (i j k : Nat) : W64 × State :=
  let v := s.shown p r i j k
  let plain := if r.info.rc = 0 then (v, s) else (v, s.wr r i j k (s.rd r i j k &&& ~~~(BitVec.ofNat 64 r.info.rc)))
  let pair := fun (x : W32 × W32 × State) => (x.2.1 ++ x.1, x.2.2)
  match r with
  | .LNE_TX_TS => if k = 0 then (let x := s.txTsRead (i * 16 + j); (x.1.setWidth 64, x.2)) else (v, s)
  | .EVT_LOG_REC => if i = 0 then (let x := s.logRead; (x.1.setWidth 64, x.2)) else (v, s)
  | .CRY_NOTICE => let x := s.noticeRead; (x.1.setWidth 64, x.2)
  | .PPE_PC_SAMPLE => pair (s.sampleRead (4 * i + j))
  | .BUF_LOUPE_REPORT => pair s.loupeRead
  | .BUF_POOL_MIN => (v, s.setF F.BUF_POOL_MIN_MIN (s.f F.BUF_POOL_FREE_FREE i) i)
  | .TIM_TOD_NS =>
    let x := s.todWords
    (v, { s with bus := { s.bus with
      latch := mset (mset s.bus.latch (busKey p 0x3200020) x.1) (busKey p 0x3200024) x.2 } })
  | _ => plain

/-- A dword read at a live offset: the level, then R9's latch for the high word of a 64-bit register. -/
def State.readWord (s : State) (p : Path) (a : Nat) : W32 × State :=
  match regAt a false with
  | none => (0, s)
  | some (r, i, j, k, hi) =>
    if s.level p < r.readLevel then (0, s.denied)
    else if p = .smbus && r.ringSide then (0, s)
    else if r = .TIM_TOD_SEC then
      let live := (s.shown p r i j k).toNat
      (match mget s.bus.latch (busKey p a) with
        | some v => v
        | none => BitVec.ofNat 32 (if hi then live / 2 ^ 32 else live), s)
    else if hi then
      match mget s.bus.latch (busKey p a) with
      | some v => (v, s)
      | none => (BitVec.ofNat 32 ((s.shown p r i j k).toNat / 2 ^ 32), s)
    else
      let x := s.readReg p r i j k
      if r.info.bits = 64 then
        (x.1.setWidth 32, { x.2 with bus := { x.2.bus with
          latch := mset x.2.bus.latch (busKey p (a + 4)) (BitVec.ofNat 32 (x.1.toNat / 2 ^ 32)) } })
      else (x.1.setWidth 32, x.2)

/-! ### What a write changes (R7) -/

/-- RWL fields of a register take a write: the configuration lock is clear, and for BUF CFG_DONE too (R225). -/
def State.rwlOpen (s : State) (r : Reg) : Bool :=
  !s.fb F.MGT_CTRL_CFG_LOCK && (r.block != 0x40 || !s.fb F.BUF_STATUS_CFG_DONE)

/-- The value a register takes from a write, each field under its access type. -/
def State.merged (s : State) (r : Reg) (i j k : Nat) (v : W64) : W64 :=
  let old := s.rd r i j k
  let rw := BitVec.ofNat 64 (if s.rwlOpen r then r.info.rw ||| r.info.rwl else r.info.rw)
  ((old &&& ~~~rw) ||| (v &&& rw)) &&& ~~~(v &&& BitVec.ofNat 64 r.info.w1c)

/-- The block's CFG_ERR sets; its first setting raises the block's event. -/
def State.blockErr (s : State) (r : Reg) (i : Nat) : State :=
  match r.block with
  | 0x01 => s.cfgErr F.LNE_SLICE_STATUS_CFG_ERR 257 i
  | 0x02 => s.cfgErr F.CRY_STATUS_CFG_ERR 259
  | 0x03 => s.cfgErr F.PRS_BANK_STATUS_CFG_ERR 288
  | 0x04 => s.cfgErr F.CLS_STATUS_CFG_ERR 289 i
  | 0x05 => s.cfgErr F.XMT_STATUS_CFG_ERR 293
  | 0x06 => s.cfgErr F.PPE_STATUS_CFG_ERR 369
  | 0x40 => s.cfgErr F.BUF_STATUS_CFG_ERR 452
  | 0x42 => s.cfgErr F.HBM_STATUS_CFG_ERR 458
  | 0x43 => s.cfgErr F.QUE_STATUS_CFG_ERR 480
  | 0x44 => s.cfgErr F.SHP_STATUS_CFG_ERR 481
  | 0x45 => s.cfgErr F.FAB_STATUS_CFG_ERR 484
  | 0x52 => s.cfgErr F.CNT_STATUS_CFG_ERR 39
  | 0x80 => s.cfgErr F.TRN_STATUS_CFG_ERR 323
  | 0xC0 => s.cfgErr F.MGT_STATUS_CFG_ERR 0
  | 0xC1 | 0xC2 => s.cfgErr F.HST_STATUS_CFG_ERR 34
  | 0xC3 => s.cfgErr F.EVT_STATUS_CFG_ERR 14
  | 0xC4 => s.cfgErr F.PWR_STATUS_CFG_ERR 10
  | 0xC9 => s.cfgErr F.RED_STATUS_CFG_ERR 105
  | _ => s

/-! ### Refused writes: s is the state before, t what the write would leave -/

/-- R56, R57, R78: the line interface. -/
def State.lneRefuses (s t : State) (r : Reg) (i j k : Nat) (v : W64) : Bool :=
  let same := s.rd r i j k == t.rd r i j k
  match r with
  | .LNE_LANE_MAP => !same && (!lanePermutation v || !s.sliceDisabled i)
  | .LNE_LANE_POL => !same && !s.sliceDisabled i
  | .LNE_PORT_CFG => !s.portCfgOk (16 * i + j) v
  | .LNE_PORT_CTRL =>
    s.f F.LNE_PORT_CTRL_MAX_FRAME i j != t.f F.LNE_PORT_CTRL_MAX_FRAME i j &&
    decide (s.f F.BUF_CTRL_MAX_FRAME < t.f F.LNE_PORT_CTRL_MAX_FRAME i j)
  | _ => false

/-- R117, R118, CRY_TX_SA, R125, R140, R150: the FD tables and TD. -/
def State.tableRefuses (s t : State) (r : Reg) (i j k : Nat) (v : W64) : Bool :=
  let same := s.rd r i j k == t.rd r i j k
  let d := s.rd r i j k ^^^ t.rd r i j k
  match r with
  | .CRY_TX_SA =>
    let e := s.sa (F.CRY_TX_SA_SA.of v)
    F.CRY_TX_SA_EN.of v == 1 && !(e.valid && e.type == 1)
  | .CLS_RANGE_SRC =>
    s.fb F.CLS_RANGE_SRC_EN i j && s.f F.CLS_RANGE_SRC_SRC i j != t.f F.CLS_RANGE_SRC_SRC i j
  | .CLS_PROF_CTRL => profBad (t.rd r i j k).toNat
  | .XMT_TBL_CFG =>
    if s.xEn i then d &&& ~~~(BitVec.ofNat 64 (F.XMT_TBL_CFG_EN.mask + F.XMT_TBL_CFG_LEARN.mask)) != 0
    else t.xEn i && (!t.xCfgOk i || s.f F.XMT_TBL_ENTRIES_ENTRIES i != 0)
  | .XMT_TBL_BASE | .XMT_TBL_SEED => s.xEn i && !same
  | .XMT_TBL_AGE =>
    t.f F.XMT_TBL_AGE_TICK_MS i == 0 || decide (1000 < t.f F.XMT_TBL_AGE_TICK_MS i) ||
    t.f F.XMT_TBL_AGE_SWEEP_TICKS i == 0 || (s.xEn i && !same)
  | .XMT_TBL_TIME => t.f F.XMT_TBL_TIME_TIMEOUT i == 0 || (s.xEn i && !same)
  | .TRN_TBL_CFG =>
    let named := (List.range 1024).any fun b => s.fb F.TRN_BLK_CFG_EN b && s.f F.TRN_BLK_CFG_TABLE b == i
    let width := t.f F.TRN_TBL_CFG_WIDTH i
    (d &&& ~~~(BitVec.ofNat 64 F.TRN_TBL_CFG_EN.mask) != 0 && (s.fb F.TRN_TBL_CFG_EN i || named)) ||
    width == 3 || decide (16 < t.f F.TRN_TBL_CFG_FACET_BITS i) ||
    decide (80 * 2 ^ width < t.f F.TRN_TBL_CFG_FACET_OFF i + t.f F.TRN_TBL_CFG_FACET_BITS i)
  | .TRN_BLK_CFG | .TRN_BLK_FACET => !same && s.f F.TRN_BLK_CFG_USED i != 0
  | _ => false

/-- R254: a limit profile is valid. -/
def State.limitsOk (s : State) (k : Nat) : Bool :=
  let on := s.f F.QUE_CFG_LIMIT_ONDIE_MAX k
  let at' := s.f F.QUE_CFG_SPILL_SPILL_AT k
  on != 0 && decide (at' * 1024 ≤ on * 64) && (at' == 0 || decide (s.f F.QUE_CFG_SPILL_RESTORE_AT k < at')) &&
  decide (s.f F.QUE_CFG_YELLOW_YELLOW_MAX k ≤ s.f F.QUE_CFG_TOTAL_TOTAL_MAX k)

/-- The shares of HBM_ARB_CFG sum to 64 and the budget is in range (R247). -/
def arbOk (v : W64) : Bool :=
  (List.range 7).foldl (fun a n => a + bits v.toNat (54 - 7 * n) (48 - 7 * n)) 0 == 64 &&
  decide (64 ≤ F.HBM_ARB_CFG_STACK_BUDGET.of v) && decide (F.HBM_ARB_CFG_STACK_BUDGET.of v ≤ 448)

/-- R225, R247, R248, R254, R269 to R271, R297: QD. -/
def State.qdRefuses (s t : State) (r : Reg) (i j k : Nat) (v : W64) : Bool :=
  match r with
  | .BUF_CTRL | .BUF_POOL_CFG =>
    !s.rwlOpen r && (s.rd r i j k ^^^ v) &&& BitVec.ofNat 64 r.info.rwl != 0
  | .HBM_ARB_CFG => !arbOk v
  | .HBM_STACK_CFG => !s.rwlOpen r && F.HBM_STACK_CFG_ORDER.of v != s.f F.HBM_STACK_CFG_ORDER i
  | .QUE_CTRL => t.f F.QUE_CTRL_EGQ_BASE == 0
  | .QUE_PUNT_QID => s.isVoq (F.QUE_PUNT_QID_QID.of v)
  | .QUE_CFG_LIMIT | .QUE_CFG_SPILL | .QUE_CFG_TOTAL | .QUE_CFG_YELLOW => !t.limitsOk i
  | .SHP_GALLEY_CTRL =>
    (F.SHP_GALLEY_CTRL_EN.of v == 1 && bits (s.nodeOf 0 i).2 39 16 == 0) ||
    (F.SHP_GALLEY_CTRL_SWITCH.of v == 1 && (s.fb F.SHP_GALLEY_STATUS_SWITCH_PENDING i || !(s.idleBank i).valid))
  | .SHP_GALLEY_BASE_NS => decide (999999999 < v.toNat)
  | .SHP_GALLEY_CYCLE => decide (v.toNat < 1024)
  | .SHP_GALLEY_LEN => t.f F.SHP_GALLEY_LEN_LENGTH i == 0 || decide (1024 < t.f F.SHP_GALLEY_LEN_LENGTH i)
  | .FAB_CREDIT_CFG =>
    decide (t.f F.FAB_CREDIT_CFG_GEN_PCT < 100) || decide (125 < t.f F.FAB_CREDIT_CFG_GEN_PCT) ||
    t.f F.FAB_CREDIT_CFG_BAL_MAX == 0 || t.f F.FAB_CREDIT_CFG_REFRESH_US == 0
  | .FAB_DISP_CFG => t.f F.FAB_DISP_CFG_CTRL_MAX == 0 || decide (240 < t.f F.FAB_DISP_CFG_CTRL_MAX)
  | .FAB_REASM_CFG => t.f F.FAB_REASM_CFG_TIMEOUT_US == 0
  | .FAB_ELIM_CFG => t.f F.FAB_ELIM_CFG_IDLE_MS == 0
  | .FAB_LANE_RETIRE => decide (160 ≤ F.FAB_LANE_RETIRE_LANE.of v)
  | .CNT_CTRL =>
    t.f F.CNT_CTRL_FREEZE_MS == 0 || decide (100 < t.f F.CNT_CTRL_FREEZE_MS) ||
    t.f F.CNT_CTRL_FLUSH_MS == 0 || decide (1000 < t.f F.CNT_CTRL_FLUSH_MS) ||
    (F.CNT_CTRL_SNAPSHOT.of v == 1 && s.snapshotBusy)
  | .CNT_EXP_CFG => t.f F.CNT_EXP_CFG_PERIOD_MS == 0
  | .CNT_EXP_RANGE =>
    t.f F.CNT_EXP_RANGE_LENGTH == 0 || decide (2 ^ 25 < t.f F.CNT_EXP_RANGE_OFFSET + t.f F.CNT_EXP_RANGE_LENGTH)
  | _ => false

/-- A write of the CFG of a queue, ring or channel is refused (R379): when SIZE is out of range; while EN is set, unless it
clears EN; while EN is clear, when it sets EN though `held` says that it may not. -/
def ringCfgBad (en held : Bool) (size lo hi : Nat) (v : W64) : Bool :=
  decide (size < lo) || decide (hi < size) || (bit v.toNat 31 && (en || held))

/-- R326, R361, R362, R370, R372, R379, R396, R399, R401: the management die. -/
def State.mgmtRefuses (s t : State) (r : Reg) (i : Nat) (v : W64) : Bool :=
  match r with
  | .RED_CB_CFG => t.f F.RED_CB_CFG_RECOV_MS == 0
  | .HST_CTRL => decide (0x3D < F.HST_CTRL_APERTURE.of v)
  | .HST_WQ_ADDR | .HST_CQ_ADDR | .HST_PUNT_ADDR | .HST_INJ_ADDR | .DMA_CH_RING => v.toNat % 4096 != 0
  | .HST_WQ_CFG =>
    ringCfgBad (s.fb F.HST_WQ_CFG_EN i) (s.fb F.HST_WQ_STATUS_ENABLED i) (F.HST_WQ_CFG_SIZE.of v) 7 17 v
  | .HST_CQ_CFG => ringCfgBad (s.fb F.HST_CQ_CFG_EN i) false (F.HST_CQ_CFG_SIZE.of v) 4 16 v
  | .HST_PUNT_CFG =>
    ringCfgBad (s.fb F.HST_PUNT_CFG_EN i) (t.fb F.HST_PUNT_CFG_OWNER i) (F.HST_PUNT_CFG_SIZE.of v) 4 16 v
  | .HST_INJ_CFG =>
    ringCfgBad (s.fb F.HST_INJ_CFG_EN i) (t.fb F.HST_INJ_CFG_OWNER i) (F.HST_INJ_CFG_SIZE.of v) 4 16 v
  | .DMA_CH_CFG => ringCfgBad (s.fb F.DMA_CH_CFG_EN i) false (F.DMA_CH_CFG_SIZE.of v) 4 12 v
  | .HST_WQ_CI => s.fb F.HST_WQ_CFG_EN i || s.fb F.HST_WQ_STATUS_ENABLED i
  | .PWR_CTRL => F.PWR_CTRL_P4_REQ.of v == 1 && s.doublet
  | .PWR_THERM_CFG =>
    decide (105 < t.f F.PWR_THERM_CFG_CRIT) || decide (t.f F.PWR_THERM_CFG_CRIT ≤ t.f F.PWR_THERM_CFG_WARN)
  | _ => false

/-- A write that breaks a rule of its block's chapter. -/
def State.refuses (s t : State) (r : Reg) (i j k : Nat) (v : W64) : Bool :=
  if r.block = 0x01 then s.lneRefuses t r i j k v
  else if r.block < 0x40 ∨ r.block = 0x80 then s.tableRefuses t r i j k v
  else if r.block < 0x80 then s.qdRefuses t r i j k v
  else s.mgmtRefuses t r i v

/-! ### What a write starts: s is the state before, t after the fields took their values -/

/-- A bit goes from clear to set. -/
def State.rises (s t : State) (x : Fld) (i : Nat) (j : Nat := 0) : Bool := !s.fb x i j && t.fb x i j
/-- A bit goes from set to clear. -/
def State.falls (s t : State) (x : Fld) (i : Nat) (j : Nat := 0) : Bool := s.fb x i j && !t.fb x i j

/-- Every slice of a mask leaves its power state: a commit names it (R395). -/
def State.trigMask (s : State) (m : Nat) : State :=
  (List.range 8).foldl (fun (u : State) g => if bit m g then u.trigGroup g else u) s

/-- FD and TD. -/
def State.fdHook (s t : State) (r : Reg) (i j : Nat) (v : W64) : State :=
  match r with
  | .LNE_PORT_CFG =>
    let u := t.laneGenChange s i
    if s.rises t F.LNE_PORT_CFG_EN i j then (u.portStart (16 * i + j)).trigGroup i
    else if s.falls t F.LNE_PORT_CFG_EN i j then u.portStop (16 * i + j)
    else u
  | .LNE_PORT_CTRL =>
    (if F.LNE_PORT_CTRL_RESTART.of v = 1 then t.portRestart (16 * i + j) else t).signalChange (16 * i + j)
      (s.inPlace (16 * i + j))
  | .LNE_OTN_CFG | .LNE_TTI_EXP_SM | .LNE_TTI_EXP_PM => t.otnReconfig (16 * i + j)
  | .LNE_LANE_TEST =>
    let u := t.laneGenChange s i
    if s.rises t F.LNE_LANE_TEST_GEN_EN i j || s.rises t F.LNE_LANE_TEST_CHK_EN i j then u.trigGroup i else u
  | .CRY_SA_SWITCH => t.saSwitchWrite (F.CRY_SA_SWITCH_SA.of v)
  | .PRS_COMMIT => (t.prsCommit (F.PRS_COMMIT_SLICES.of v)).trigMask (F.PRS_COMMIT_SLICES.of v)
  | .XMT_TBL_CFG => if s.falls t F.XMT_TBL_CFG_EN i then t.tableOff i else t
  | .TRN_PORT_RETIRE => (List.range 16).foldl (fun (u : State) n => if bit v.toNat n then u.tdRetire n else u) t
  | .TRN_MOVE_CTRL =>
    if F.TRN_MOVE_CTRL_START.of v = 1 then
      t.runMove (F.TRN_MOVE_CTRL_SRC.of v) (F.TRN_MOVE_CTRL_DST.of v) (F.TRN_MOVE_CTRL_COUNT_M1.of v + 1)
    else t
  | .PPE_COMMIT => (t.ppeCommit (F.PPE_COMMIT_SLICES.of v)).trigMask (F.PPE_COMMIT_SLICES.of v)
  | .PPE_RETIRE => if F.PPE_RETIRE_GO.of v = 1 then t.engRetire (F.PPE_RETIRE_ENGINE.of v) else t
  | .PPE_PC_GLOBAL =>
    let u := { t with ppe := { t.ppe with freezeAsk := some (t.fb F.PPE_PC_GLOBAL_FREEZE) } }
    if F.PPE_PC_GLOBAL_SNAPSHOT.of v = 1 then
      { u with ppe := { u.ppe with snapAsk := true } }.setF F.PPE_PC_GLOBAL_SNAP_DONE 0
    else u
  | _ => t

/-- QD. -/
def State.qdHook (s t : State) (r : Reg) (i : Nat) (v : W64) : State :=
  match r with
  | .BUF_CTRL =>
    let u := if s.rises t F.BUF_CTRL_LOUPE_EN i then t.loupeOn else t
    if F.BUF_CTRL_BUILD.of v = 1 then u.bufBuild else u
  | .HBM_ARB_CFG => { t with hbm := { t.hbm with arb := some s.arb } }
  | .TPL_RETIRE => t.tplRetire v.toNat
  | .HBM_RETIRE => t.hbmRetire v
  | .QUE_FLUSH => if F.QUE_FLUSH_GO.of v = 1 then t.queFlush (F.QUE_FLUSH_QID.of v) else t
  | .SHP_GALLEY_CTRL =>
    let u :=
      if s.rises t F.SHP_GALLEY_CTRL_EN i then t.galleyEnable i
      else if s.falls t F.SHP_GALLEY_CTRL_EN i then t.galleyDisable i
      else if t.fb F.SHP_GALLEY_STATUS_IN_GAP i then t.galleyGap i
      else t
    if F.SHP_GALLEY_CTRL_SWITCH.of v = 1 then u.galleySwitch i else u
  | .FAB_LANE_RETIRE => if F.FAB_LANE_RETIRE_GO.of v = 1 then t.fabRetire (F.FAB_LANE_RETIRE_LANE.of v) else t
  | .CNT_CTRL =>
    let u := if F.CNT_CTRL_SNAPSHOT.of v = 1 then t.snapshotAsk else t
    if F.CNT_CTRL_RELEASE.of v = 1 then u.snapshotRelease else u
  | _ => t

/-- The management die. TIM_INCR takes its value as written, INT_NS outside 0x01 to 0x03 too, for which the spec gives only
the range (DESIGN CHOICE, log entry 83). -/
def State.mgmtHook (s t : State) (p : Path) (r : Reg) (i : Nat) (v : W64) : State :=
  match r with
  | .TIM_CTRL => (if s.fb F.TIM_CTRL_SRC = t.fb F.TIM_CTRL_SRC then t else t.newEdges).hostLock
  | .TIM_INCR => { t with tb := { t.tb with pendIncr := some (t.rd .TIM_INCR 0 0 0).toNat } }
  | .TIM_ADJ => t.timAdj (v.setWidth 32)
  | .RED_TWIN_RETIRE => t.twinRetireWrite v
  | .MGT_CTRL => t.mgtWrite v.toNat
  | .HST_SESS_CMD => t.sessCmd p v
  | .HST_WQ_CFG =>
    if s.rises t F.HST_WQ_CFG_EN i then t.wqEnable i
    else if s.falls t F.HST_WQ_CFG_EN i then t.settleDisable i
    else t
  | .HST_WQ_PI => t.wqDoorbell i
  | .HST_WQ_INVAL => t.wqInval i v.toNat
  | .HST_CQ_CFG => if s.rises t F.HST_CQ_CFG_EN i then t.cqResume i else t
  | .HST_CQ_CI => t.cqResume i
  | .HST_INJ_CFG => if s.rises t F.HST_INJ_CFG_EN i then t.trigMask 255 else t
  | .DMA_CH_CFG => (if s.falls t F.DMA_CH_CFG_EN i then t.dmaDisable i else t).dmaShow i
  | .DMA_CH_PI => t.dmaShow i
  | .EVT_SRC_CFG => t.srcCfgHook i (s.fb F.EVT_SRC_CFG_EN i)
  | .EVT_GRP_PEND => t.noticeLevel
  | .EVT_SW_SET => t.swSet v
  | .PWR_CTRL =>
    if s.rises t F.PWR_CTRL_P4_REQ 0 then t.p4Ask else if s.falls t F.PWR_CTRL_P4_REQ 0 then t.p4Free else t
  | .PWR_GRP_CFG => t.ltrHook i
  | _ => t

/-- What a write starts beyond its fields. -/
def State.writeHook (s t : State) (p : Path) (r : Reg) (i j : Nat) (v : W64) : State :=
  if r.block < 0x40 ∨ r.block = 0x80 then s.fdHook t r i j v
  else if r.block < 0x80 then s.qdHook t r i v
  else s.mgmtHook t p r i v

/-! ### Writes -/

/-- A write of ADMIN that the path's session does not allow leaves ADMIN unchanged and sets DENIED (R372). -/
def State.adminRule (s : State) (p : Path) (r : Reg) (i : Nat) (v : W64) : W64 × State :=
  let old := s.f F.DMA_CH_CFG_ADMIN i
  if r = .DMA_CH_CFG ∧ F.DMA_CH_CFG_ADMIN.of v ≠ old ∧ (p ≠ .pcie ∨ s.level p < 2) then
    (F.DMA_CH_CFG_ADMIN.put v old, s.denied)
  else (v, s)

/-- The exporter's channel ignores host writes to its ring, PI and CI (R391). -/
def State.exporterIgnores (s : State) (r : Reg) (i : Nat) : Bool :=
  (r == .DMA_CH_RING || r == .DMA_CH_PI || r == .DMA_CH_CI) && s.exporterOwns i

/-- A whole register is written: its fields, or nothing and CFG_ERR where a rule refuses it. -/
def State.writeReg (s : State) (p : Path) (r : Reg) (i j k : Nat) (v0 : W64) : State :=
  if r = .HST_SESS_DATA then
    s.setSess p { s.sess p with data := (s.sess p).data.set i (v0.setWidth 32) }
  else if r = .TIM_TOD_SEC then { s with tb := { s.tb with pendSec := some (v0.toNat % 2 ^ 48) } }
  else if s.exporterIgnores r i then s
  else
    let a := s.adminRule p r i v0
    let t := a.2.wr r i j k (a.2.merged r i j k a.1)
    if a.2.refuses t r i j k a.1 then a.2.blockErr r i else a.2.writeHook t p r i j a.1

/-- A register that no write changes. -/
def Reg.readOnly (r : Reg) : Bool := r.info.rw == 0 && r.info.rwl == 0 && r.info.w1c == 0 && r.info.wo == 0

/-- A write that the level does not allow: nothing changes and DENIED sets; for MGT its CFG_ERR sets too, and PWR's for
P4_REQ, which R396 refuses without an administrator session (R348, R353, R401). -/
def State.writeDenied (s : State) (r : Reg) (v : W32) : State :=
  if r.block = 0xC0 ∨ (r = .PWR_CTRL ∧ F.PWR_CTRL_P4_REQ.of (v.setWidth 64) = 1) then s.denied.blockErr r 0 else s.denied

/-- A dword written at a live offset: the level, then R9's held low word of a 64-bit register; with none held, its present low
word. The first two words of the 96-bit SHP_GALLEY_BASE, its seconds, are held and latched like a 64-bit register (DESIGN
CHOICE, log entry 9). -/
def State.writeWord (s : State) (p : Path) (a : Nat) (v : W32) : State :=
  match regAt a true with
  | none => s
  | some (r, i, j, k, hi) =>
    if s.level p < r.writeLevel then s.writeDenied r v
    else if (p = .smbus && r.ringSide) || r.readOnly then s
    else if r.info.bits = 64 then
      if hi then
        let key := busKey p (a - 4)
        let low := mgetD s.bus.hold key ((s.shown p r i j k).setWidth 32)
        ({ s with bus := { s.bus with hold := merase s.bus.hold key } }).writeReg p r i j k (v ++ low)
      else { s with bus := { s.bus with hold := mset s.bus.hold (busKey p a) v } }
    else s.writeReg p r i j k (v.setWidth 64)

/-! ### The paths (R38, R39, R352) -/

/-- A dword access goes into its die's queue, or finds it full: then a read completes with Completer Abort and a write is
discarded with ACCESS_ERR (R38). -/
def State.holdAccess (s : State) (h : HeldAccess) : State :=
  let d := dieOf h.addr
  if 16 ≤ (s.dieQ d).length then (if h.write then s.accessErr else s.emit (.completerAbort h.path))
  else
    let s1 := s.setDieQ d (s.dieQ d ++ [h])
    if h.path = .smbus then { s1 with bus := { s1.bus with smbWait := true } } else s1

/-- An access at an offset waits: behind others of its die, or for a stopped clock or a held group. -/
def State.mustWait (s : State) (a : Nat) : Bool := !(s.dieQ (dieOf a)).isEmpty || !s.addrLive a

/-- A BAR0 request is one aligned dword, or two (R352). -/
def reqOk (a n : Nat) : Bool := a % 4 == 0 && (n == 1 || n == 2) && decide (a + 4 * n ≤ 2 ^ 26)

/-- A read request of n dwords. -/
def State.busRead (s : State) (p : Path) (a n : Nat) (bytesOk : Bool) : State :=
  if !s.pathUp p then s
  else if !reqOk a n then s.emit (.unsupported p)
  else
    let s0 := if bytesOk then s else s.accessErr
    if s0.mustWait a then
      (List.range n).foldl (fun (u : State) x => u.holdAccess ⟨p, false, a + 4 * x, 0⟩) s0
    else
      let x := s0.readWord p a
      if n = 1 then x.2.emit (.readData p [x.1])
      else
        let y := x.2.readWord p (a + 4)
        y.2.emit (.readData p [x.1, y.1])

/-- A write request of dwords. -/
def State.busWrite (s : State) (p : Path) (a : Nat) (data : List W32) (bytesOk : Bool) : State :=
  if !s.pathUp p then s
  else if !reqOk a data.length then s.emit (.unsupported p)
  else if !bytesOk then s.accessErr
  else
    data.zipIdx.foldl (fun (u : State) x =>
      let b := a + 4 * x.2
      if u.mustWait b then u.holdAccess ⟨p, true, b, x.1⟩ else u.writeWord p b x.1) s

/-- A write of the MSI-X table in BAR4; a message that was pending leaves as its mask goes (R382). -/
def State.msixWrite (s : State) (a : Nat) (v : W32) : State :=
  let n := a / 16
  let e := s.msixEntry n
  if 64 ≤ n then s
  else
    let e1 := match a / 4 % 4 with
      | 0 => { e with addr := e.addr / 2 ^ 32 * 2 ^ 32 + v.toNat }
      | 1 => { e with addr := v.toNat * 2 ^ 32 + e.addr % 2 ^ 32 }
      | 2 => { e with data := v.toNat }
      | _ => { e with masked := v.toNat % 2 == 1 }
    (s.setMsix n e1).sendUnmasked [n]

/-- A write of the MSI-X message control word: enable in bit 15, function mask in bit 14. -/
def State.msixControl (s : State) (v : W32) : State :=
  ({ s with evt := { s.evt with msixEn := bit v.toNat 15, msixMask := bit v.toNat 14 } }).sendUnmasked (List.range 64)

/-- Meaning of REGISTER_WRITE: a write request of BAR0, of the MSI-X table, or of the MSI-X control word. -/
def execRegisterWrite (path : Path) (space : Space) (addr : W32) (bytesOk : Bool) (data : List W32) (s : State) : Ans :=
  let s := s.begin
  match space with
  | .bar0 => .next (s.busWrite path addr.toNat data bytesOk)
  | .bar4 =>
    .next (if s.pathUp path && path == .pcie then
      data.zipIdx.foldl (fun (u : State) x => u.msixWrite (addr.toNat + 4 * x.2) x.1) s else s)
  | .msixCtl =>
    .next (if s.pathUp path && path == .pcie then (match data with | v :: _ => s.msixControl v | [] => s) else s)

/-- Meaning of RC_FIELD_READ. -/
def execRcFieldRead (path : Path) (addr : W32) (bytesOk : Bool) (dwords : Nat) (s : State) : Ans :=
  .next (s.begin.busRead path addr.toNat dwords bytesOk)

/-- Meaning of LOW_WORD_READ. -/
def execLowWordRead (path : Path) (addr : W32) (bytesOk : Bool) (dwords : Nat) (s : State) : Ans :=
  .next (s.begin.busRead path addr.toNat dwords bytesOk)

/-- A read that waited completes: PCIe no longer takes it; SMBus does while it stretches the clock (R39, R377). -/
def State.heldDone (s : State) (p : Path) (d : W32) : State :=
  match p with
  | .pcie => s.emit (.lateData p [d])
  | .smbus =>
    if s.bus.smbWait then ({ s with bus := { s.bus with smbWait := false } }).emit (.readData p [d])
    else s.emit (.lateData p [d])
  | .fw => s.emit (.readData p [d])

/-- Meaning of HELD_ACCESS_EXECUTE: the oldest access of a die's queue executes once its part runs. -/
def execHeldAccessExecute (die : Die) (s : State) : Ans :=
  s.onMgmt fun s =>
    match s.dieQ die with
    | [] => s
    | h :: rest =>
      if !s.addrLive h.addr then s
      else
        let s1 := s.setDieQ die rest
        if h.write then
          let s2 := s1.writeWord h.path h.addr h.data
          if h.path = .smbus then { s2 with bus := { s2.bus with smbWait := false } } else s2
        else
          let x := s1.readWord h.path h.addr
          x.2.heldDone h.path x.1

/-- Meaning of SMBUS_DWORD_ACCESS: command 0x11 writes or reads one dword at the set address (R377). -/
def execSmbusDwordAccess (write : Option W32) (pecOk : Bool) (s : State) : Ans :=
  s.onMgmt fun s =>
    if !pecOk then s.emit .smbusNack
    else
      match write with
      | some v => s.busWrite .smbus s.bus.smbAddr.toNat [v] true
      | none =>
        if s.bus.smbTimedOut then
          (({ s with bus := { s.bus with smbTimedOut := false } }).accessErr).emit (.readData .smbus [0xFFFFFFFF])
        else s.busRead .smbus s.bus.smbAddr.toNat 1 true

/-! ### Commands that are one register access -/

/-- One dword written to copy (i, j, k) of a register over a path; for the high word of a 64-bit one, `off` is 4. -/
def State.hostWrite (s : State) (p : Path) (r : Reg) (i j k off : Nat) (v : W32) : Ans :=
  .next (s.begin.busWrite p (r.addr i j k + off) [v] true)

/-- One dword read from copy (i, j, k) of a register over a path. -/
def State.hostRead (s : State) (p : Path) (r : Reg) (i j k : Nat) : Ans :=
  .next (s.begin.busRead p (r.addr i j k) 1 true)

/-- Meaning of TIM_ADJ. -/
def execTimAdj (path : Path) (step : W32) (s : State) : Ans := s.hostWrite path .TIM_ADJ 0 0 0 0 step
/-- Meaning of TIM_TOD_NS_READ. -/
def execTimTodNsRead (path : Path) (s : State) : Ans := s.hostRead path .TIM_TOD_NS 0 0 0
/-- Meaning of CORE_RESET: MGT_CTRL.CORE_RESET is written. -/
def execCoreReset (path : Path) (s : State) : Ans := s.hostWrite path .MGT_CTRL 0 0 0 0 0x08000000
/-- Meaning of MGMT_RESET: MGT_CTRL.MGMT_RESET is written. -/
def execMgmtReset (path : Path) (s : State) : Ans := s.hostWrite path .MGT_CTRL 0 0 0 0 0x10000000
/-- Meaning of CONFIRM: MGT_CTRL.CONFIRM is written. -/
def execConfirm (path : Path) (s : State) : Ans := s.hostWrite path .MGT_CTRL 0 0 0 0 0x40000000
/-- Meaning of REJECT: MGT_CTRL.REJECT is written. -/
def execReject (path : Path) (s : State) : Ans := s.hostWrite path .MGT_CTRL 0 0 0 0 0x20000000
/-- Meaning of PORT_ENABLE: LNE_PORT_CFG is written. -/
def execPortEnable (path : Path) (port : BitVec 7) (value : W32) (s : State) : Ans :=
  s.hostWrite path .LNE_PORT_CFG (port.toNat / 16) (port.toNat % 16) 0 0 value
/-- Meaning of PORT_DISABLE: LNE_PORT_CFG is written. -/
def execPortDisable (path : Path) (port : BitVec 7) (value : W32) (s : State) : Ans :=
  s.hostWrite path .LNE_PORT_CFG (port.toNat / 16) (port.toNat % 16) 0 0 value
/-- Meaning of PORT_RESTART: LNE_PORT_CTRL is written. -/
def execPortRestart (path : Path) (port : BitVec 7) (value : W32) (s : State) : Ans :=
  s.hostWrite path .LNE_PORT_CTRL (port.toNat / 16) (port.toNat % 16) 0 0 value
/-- Meaning of LNE_TX_TS_READ. -/
def execLneTxTsRead (path : Path) (port : BitVec 7) (s : State) : Ans :=
  s.hostRead path .LNE_TX_TS (port.toNat / 16) (port.toNat % 16) 0
/-- Meaning of CRY_SA_SWITCH. -/
def execCrySaSwitch (path : Path) (value : W32) (s : State) : Ans := s.hostWrite path .CRY_SA_SWITCH 0 0 0 0 value
/-- Meaning of CRY_NOTICE_READ. -/
def execCryNoticeRead (path : Path) (s : State) : Ans := s.hostRead path .CRY_NOTICE 0 0 0
/-- Meaning of PRS_COMMIT. -/
def execPrsCommit (path : Path) (value : W32) (s : State) : Ans := s.hostWrite path .PRS_COMMIT 0 0 0 0 value
/-- Meaning of TABLE_DISABLE: XMT_TBL_CFG is written. -/
def execTableDisable (path : Path) (table : BitVec 4) (value : W32) (s : State) : Ans :=
  s.hostWrite path .XMT_TBL_CFG table.toNat 0 0 0 value
/-- Meaning of RUN_MOVE: the high word of TRN_MOVE_CTRL is written. -/
def execRunMove (path : Path) (value : W32) (s : State) : Ans := s.hostWrite path .TRN_MOVE_CTRL 0 0 0 4 value
/-- Meaning of TD_PORT_RETIRE. -/
def execTdPortRetire (path : Path) (value : W32) (s : State) : Ans := s.hostWrite path .TRN_PORT_RETIRE 0 0 0 0 value
/-- Meaning of TPL_RETIRE. -/
def execTplRetire (path : Path) (value : W32) (s : State) : Ans := s.hostWrite path .TPL_RETIRE 0 0 0 0 value
/-- Meaning of PPE_COMMIT. -/
def execPpeCommit (path : Path) (value : W32) (s : State) : Ans := s.hostWrite path .PPE_COMMIT 0 0 0 0 value
/-- Meaning of PPE_RETIRE. -/
def execPpeRetire (path : Path) (value : W32) (s : State) : Ans := s.hostWrite path .PPE_RETIRE 0 0 0 0 value
/-- Meaning of PC_FREEZE: PPE_PC_GLOBAL is written. -/
def execPcFreeze (path : Path) (value : W32) (s : State) : Ans := s.hostWrite path .PPE_PC_GLOBAL 0 0 0 0 value
/-- Meaning of PC_SNAPSHOT: PPE_PC_GLOBAL is written. -/
def execPcSnapshot (path : Path) (value : W32) (s : State) : Ans := s.hostWrite path .PPE_PC_GLOBAL 0 0 0 0 value
/-- Meaning of PC_SAMPLE_READ. -/
def execPcSampleRead (path : Path) (cluster : BitVec 5) (s : State) : Ans :=
  s.hostRead path .PPE_PC_SAMPLE (cluster.toNat / 4) (cluster.toNat % 4) 0
/-- Meaning of BUF_BUILD: BUF_CTRL is written. -/
def execBufBuild (path : Path) (value : W32) (s : State) : Ans := s.hostWrite path .BUF_CTRL 0 0 0 0 value
/-- Meaning of LOUPE_REPORT_READ. -/
def execLoupeReportRead (path : Path) (s : State) : Ans := s.hostRead path .BUF_LOUPE_REPORT 0 0 0
/-- Meaning of HBM_RETIRE. -/
def execHbmRetire (path : Path) (value : W32) (s : State) : Ans := s.hostWrite path .HBM_RETIRE 0 0 0 0 value
/-- Meaning of QUEUE_FLUSH. -/
def execQueueFlush (path : Path) (value : W32) (s : State) : Ans := s.hostWrite path .QUE_FLUSH 0 0 0 0 value
/-- Meaning of GALLEY_ENABLE: SHP_GALLEY_CTRL is written. -/
def execGalleyEnable (path : Path) (port : BitVec 7) (value : W32) (s : State) : Ans :=
  s.hostWrite path .SHP_GALLEY_CTRL port.toNat 0 0 0 value
/-- Meaning of GALLEY_SWITCH: SHP_GALLEY_CTRL is written. -/
def execGalleySwitch (path : Path) (port : BitVec 7) (value : W32) (s : State) : Ans :=
  s.hostWrite path .SHP_GALLEY_CTRL port.toNat 0 0 0 value
/-- Meaning of FAB_LANE_RETIRE. -/
def execFabLaneRetire (path : Path) (value : W32) (s : State) : Ans := s.hostWrite path .FAB_LANE_RETIRE 0 0 0 0 value
/-- Meaning of RED_TWIN_RETIRE. -/
def execRedTwinRetire (path : Path) (value : W32) (s : State) : Ans := s.hostWrite path .RED_TWIN_RETIRE 0 0 0 0 value
/-- Meaning of EVT_SRC_CFG_WRITE. -/
def execEvtSrcCfgWrite (path : Path) (source : BitVec 11) (value : W32) (s : State) : Ans :=
  s.hostWrite path .EVT_SRC_CFG source.toNat 0 0 0 value
/-- Meaning of EVT_SW_SET. -/
def execEvtSwSet (path : Path) (value : W32) (s : State) : Ans := s.hostWrite path .EVT_SW_SET 0 0 0 0 value
/-- Meaning of EVT_LOG_REC_READ. -/
def execEvtLogRecRead (path : Path) (s : State) : Ans := s.hostRead path .EVT_LOG_REC 0 0 0
/-- Meaning of CNT_SNAPSHOT: CNT_CTRL is written. -/
def execCntSnapshot (path : Path) (value : W32) (s : State) : Ans := s.hostWrite path .CNT_CTRL 0 0 0 0 value
/-- Meaning of CNT_RELEASE: CNT_CTRL is written. -/
def execCntRelease (path : Path) (value : W32) (s : State) : Ans := s.hostWrite path .CNT_CTRL 0 0 0 0 value
/-- Meaning of LTR_WRITE: PWR_GRP_CFG is written. -/
def execLtrWrite (path : Path) (group : Fin 8) (value : W32) (s : State) : Ans :=
  s.hostWrite path .PWR_GRP_CFG group.val 0 0 0 value
/-- Meaning of P4_REQUEST: PWR_CTRL is written. -/
def execP4Request (path : Path) (value : W32) (s : State) : Ans := s.hostWrite path .PWR_CTRL 0 0 0 0 value
/-- Meaning of P4_RELEASE: PWR_CTRL is written. -/
def execP4Release (path : Path) (value : W32) (s : State) : Ans := s.hostWrite path .PWR_CTRL 0 0 0 0 value
/-- Meaning of SESSION_OPEN: OPEN with a level is written to HST_SESS_CMD. -/
def execSessionOpen (path : Path) (admin : Bool) (s : State) : Ans :=
  s.hostWrite path .HST_SESS_CMD 0 0 0 0 (if admin then 0x18000000 else 0x10000000)
/-- Meaning of SESSION_RESPOND: RESPOND is written to HST_SESS_CMD. -/
def execSessionRespond (path : Path) (s : State) : Ans := s.hostWrite path .HST_SESS_CMD 0 0 0 0 0x20000000
/-- Meaning of SESSION_CLOSE: CLOSE is written to HST_SESS_CMD. -/
def execSessionClose (path : Path) (s : State) : Ans := s.hostWrite path .HST_SESS_CMD 0 0 0 0 0x30000000
/-- Meaning of HST_WQ_INVAL. -/
def execHstWqInval (path : Path) (wq : BitVec 6) (index : W32) (s : State) : Ans :=
  s.hostWrite path .HST_WQ_INVAL wq.toNat 0 0 0 index
/-- Meaning of WQ_DOORBELL: HST_WQ_PI is written. -/
def execWqDoorbell (path : Path) (wq : BitVec 6) (value : W32) (s : State) : Ans :=
  s.hostWrite path .HST_WQ_PI wq.toNat 0 0 0 value
/-- Meaning of WQ_DISABLE: HST_WQ_CFG is written. -/
def execWqDisable (path : Path) (wq : BitVec 6) (value : W32) (s : State) : Ans :=
  s.hostWrite path .HST_WQ_CFG wq.toNat 0 0 0 value
/-- Meaning of CQ_CONSUME: HST_CQ_CI is written. -/
def execCqConsume (path : Path) (cq : BitVec 6) (value : W32) (s : State) : Ans :=
  s.hostWrite path .HST_CQ_CI cq.toNat 0 0 0 value
/-- Meaning of INJECT_DOORBELL: HST_INJ_PI is written. -/
def execInjectDoorbell (path : Path) (ring : BitVec 4) (value : W32) (s : State) : Ans :=
  s.hostWrite path .HST_INJ_PI ring.toNat 0 0 0 value
/-- Meaning of DMA_DOORBELL: DMA_CH_PI is written. -/
def execDmaDoorbell (path : Path) (channel : BitVec 4) (value : W32) (s : State) : Ans :=
  s.hostWrite path .DMA_CH_PI channel.toNat 0 0 0 value
/-- Meaning of DMA_CHANNEL_DISABLE: DMA_CH_CFG is written. -/
def execDmaChannelDisable (path : Path) (channel : BitVec 4) (value : W32) (s : State) : Ans :=
  s.hostWrite path .DMA_CH_CFG channel.toNat 0 0 0 value

end Sys2Proof.Machine
end

