-- ==== Sys2Proof/Machine/Mka.lean ====
section
/-! DEFINITION. The resident MKA service (R95 to R97, R105): keys, election, rekey, the PDUs it sends, and its timers. The
PDU's layout, the election rule, the SSCI and the salt are those of IEEE 802.1X-2020 (PRESUMED, log entry 87). -/
namespace Sys2Proof.Machine

/-- The context of the keys that derive from a CAK: its name, cut or filled with zeros to 16 bytes. -/
def cknContext (ckn : List Byte) : List Byte := (ckn ++ List.replicate 16 0).take 16
/-- The key encryption key of a CAK. -/
def mkaKek (ckn cak : List Byte) : List Byte := Std.kdf cak "IEEE8021 KEK" (cknContext ckn) 32
/-- The ICV key of a CAK. -/
def mkaIck (ckn cak : List Byte) : List Byte := Std.kdf cak "IEEE8021 ICK" (cknContext ckn) 32

/-- The device is the key server: its priority is the lower number, or the same with the lower SCI; 255 never serves. -/
def MkaPort.elected (m : MkaPort) (prio sci : Nat) : Bool :=
  m.prio != 255 && (decide (m.prio < prio) || (m.prio == prio && decide (m.sci < sci)))

/-- The SSCI of a participant of a CA of two: 1 has the greater SCI. -/
def ssciOf (own other : Nat) : Nat := if other < own then 1 else 2

/-- The XPN salt from the key server's member identifier and the key number. -/
def mkaSalt (mi : List Byte) (kn : Nat) : Nat := beNat mi ^^^ ((kn % 65536 * 65536 + kn / 65536) * 2 ^ 64)

/-- Three quarters of the largest packet number, rounded down: the LIMIT the service sets (R92's example; the rounding is a
DESIGN CHOICE, log entry 88). -/
def mkaLimit (xpn : Bool) : Nat := 3 * (if xpn then 2 ^ 64 - 1 else 2 ^ 32 - 1) / 4

/-- The confidentiality offset a port announces, as IEEE 802.1X codes it: 0 integrity only, 1 offset 0, 2 offset 30, 3 offset
50. -/
def State.mkaOffset (s : State) (p : Nat) : Nat :=
  if s.fb F.CRY_PORT_CFG_ENCRYPT p then s.f F.CRY_PORT_CFG_CONF_OFFSET p % 3 + 1 else 0

/-- The port uses the confidentiality offset that the key server announced. -/
def State.takeOffset (s : State) (p : Nat) (o : Nat) : State :=
  if o = 0 then s.setF F.CRY_PORT_CFG_ENCRYPT 0 p
  else (s.setF F.CRY_PORT_CFG_ENCRYPT 1 p).setF F.CRY_PORT_CFG_CONF_OFFSET (o - 1) p

/-! ### The change of the SAK (R97) -/

/-- Step 1: the new RX SA is installed in the next AN slot of the peer's RX SC entry, and the TX SA beside it. -/
def State.mkaInstall (s : State) (p : Nat) (q : MkaPeer) (r : Rekey) (xpn : Bool) (salt : Nat) : State :=
  let m := s.mkaPort p
  let e : SaEntry := { ext := xpn, nextPn := 1, salt := if xpn then salt else 0, key := r.sak }
  let rxE : SaEntry := { e with type := 0, limit := 1, id32 := if xpn then ssciOf q.sci m.sci else 0 }
  let txE : SaEntry := { e with type := 1, limit := mkaLimit xpn, an := r.an, sci := m.sci,
                                id32 := if xpn then ssciOf m.sci q.sci else 0 }
  match s.saInstall r.rxSa rxE with
  | none => s
  | some s1 =>
    match s1.saInstall r.txSa txE with
    | none => s1.saDelete r.rxSa
    | some s2 =>
      let c := mgetD s2.cry.cam m.scIdx {}
      let c0 : ScEntry := if c.valid && c.sci == q.sci then c else { valid := true, port := p, sci := q.sci }
      let c1 := { c0 with port := p, anValid := putBit c0.anValid r.an true, sa := c0.sa.set r.an r.rxSa }
      let s3 := { s2 with cry := { s2.cry with cam := mset s2.cry.cam m.scIdx c1 } }
      s3.setMka p { m with rekey := some r, want := false }

/-- Step 3: transmit switches to the new SA through CRY_SA_SWITCH; the first key's SA is named in CRY_TX_SA. The old RX SA
stays until its 6 s pass. -/
def State.mkaSwitch (s : State) (p : Nat) : State :=
  let m := s.mkaPort p
  match m.rekey with
  | none => s
  | some r =>
    let c := mgetD s.cry.cam m.scIdx {}
    let cur := s.f F.CRY_TX_SA_SA p
    let s1 :=
      if s.fb F.CRY_TX_SA_EN p && (s.sa cur).valid then
        (s.saWrite cur { s.sa cur with nextValid := true, nextSa := r.txSa }).saSwitchWrite cur
      else (s.setF F.CRY_TX_SA_SA r.txSa p).setF F.CRY_TX_SA_EN 1 p
    let old := if m.secured then [(m.an, c.sa.getD m.an 0)] else []
    (s1.setMka p { m with an := r.an, rekey := none, oldRx := m.oldRx ++ old }).secure p true

/-- A SAK the service generates from the device's random source (log entry 2). -/
def State.newSak (s : State) : List Byte × State := (Config.freeBytes s.free 32, { s with free := s.free + 1 })

/-- The next association number of a port. -/
def MkaPort.nextAn (m : MkaPort) : Nat := if m.secured then (m.an + 1) % 4 else m.an

/-- The key server begins a wanted rekey towards its live peer, in the next association number. -/
def State.mkaBegin (s : State) (p rx tx : Nat) : State :=
  let m := s.mkaPort p
  match m.peer with
  | some q =>
    if m.server && m.want && m.rekey.isNone && !m.crowd then
      let k := s.newSak
      (k.2.setMka p { m with kn := m.kn + 1 }).mkaInstall p q ⟨m.nextAn, rx, tx, m.kn + 1, k.1⟩ m.xpn (mkaSalt m.mi (m.kn + 1))
    else s
  | none => s

/-- A SAK that the key server distributes is unwrapped under the KEK and installed, with the cipher suite and confidentiality
offset it announces; one that does not unwrap, or that is installed already, changes nothing. -/
def State.mkaTake (s : State) (p : Nat) (q : MkaPeer) (d : SakDist) (rx tx : Nat) : State :=
  let m := s.mkaPort p
  if m.server || m.rekey.isSome || (m.secured && m.kn == d.kn.toNat) then s
  else
    match (mget s.mka.caks p).bind fun c => Std.aesUnwrap (mkaKek c.1 c.2) d.wrapped with
    | some k =>
      (((s.setMka p { m with kn := d.kn.toNat }).takeOffset p d.offset.toNat)).mkaInstall p q
        ⟨d.an.toNat, rx, tx, d.kn.toNat, k⟩ d.xpn (mkaSalt q.member d.kn.toNat)
    | none => s

/-- The peer reports the key of the rekey in progress as installed for receive. -/
def MkaPort.reports (m : MkaPort) (kn : Option (BitVec 32)) : Bool :=
  match m.rekey, kn with | some r, some k => r.kn == k.toNat | _, _ => false

/-- Meaning of MKPDU_RECEIVE (R95, R97): a PDU that verifies under the port's CAK and lists the device makes its sender live;
a second live peer leaves the port unsecured; a peer that is not live is kept as a potential one; a new peer wants a key; the
elected key server begins a rekey, and the other takes the SAK it distributes; a peer that has installed that key for receive
lets transmit switch. Keys are agreed once the SA region is cleared (R100). SA indices are those the service chose (log entry
20). -/
def execMkpduReceive (port : BitVec 7) (pdu : MkPdu) (rxSa txSa : BitVec 18) (s : State) : Ans :=
  s.onCore fun s =>
    let p := port.toNat
    if !s.mgmt || !s.mkaRuns p || !s.fb F.CRY_STATUS_ZERO_DONE || !pdu.icvOk || (mget s.mka.caks p).isNone then s
    else
      let m := s.mkaPort p
      let q : MkaPeer := ⟨pdu.member, pdu.number.toNat, pdu.sci.toNat, pdu.prio.toNat⟩
      let server := m.elected q.prio q.sci
      let begin := fun (u : State) => match pdu.sak with
        | some d => u.mkaTake p q d rxSa.toNat txSa.toNat
        | none => u.mkaBegin p rxSa.toNat txSa.toNat
      match m.peer with
      | some old =>
        if old.member ≠ pdu.member then
          if pdu.live then (s.setMka p { m with crowd := true }).secure p false else s.setMka p { m with heard := some q }
        else
          let s1 := begin (s.setMka p { m with peer := some q, server := server })
          if (s1.mkaPort p).reports pdu.rxInstalled && !m.crowd then s1.mkaSwitch p else s1
      | none =>
        if pdu.live then begin (s.setMka p { m with peer := some q, heard := none, server := server, want := true })
        else s.setMka p { m with heard := some q }

/-! ### The PDU the service sends (R95, R96) -/

/-- A parameter set of an MKPDU: type, two octets of flags, and its body with its length. -/
def paramSet (type b1 b2 : Nat) (body : List Byte) : List Byte :=
  [BitVec.ofNat 8 type, BitVec.ofNat 8 b1, BitVec.ofNat 8 (b2 + body.length / 256), BitVec.ofNat 8 body.length] ++ body ++
    List.replicate ((4 - body.length % 4) % 4) 0

/-- The parameter sets that a port's PDU carries: basic, live peer list, potential peer list, SAK use, and the SAK a key
server distributes. -/
def State.mkaSets (s : State) (p : Nat) (ckn cak : List Byte) : List Byte :=
  let m := s.mkaPort p
  let basic := paramSet 3 m.prio (b2n m.server * 128 + 0x70)
    (beBytes 8 m.sci ++ m.mi ++ beBytes 4 m.msg ++ [0x00, 0x80, 0xC2, 0x01] ++ ckn)
  let server := match m.peer with | some q => if m.server then m.mi else q.member | none => m.mi
  let lowest := fun (i : Nat) => (s.sa i).limit
  let rxOf := fun (an : Nat) => (mgetD s.cry.cam m.scIdx {}).sa.getD an 0
  let live := match m.peer with | some q => paramSet 1 0 0 (q.member ++ beBytes 4 q.number) | none => []
  let potential := match m.heard with | some q => paramSet 2 0 0 (q.member ++ beBytes 4 q.number) | none => []
  let key := fun (kn pn : Nat) => server ++ beBytes 4 kn ++ beBytes 4 (pn % 2 ^ 32)
  let none20 := List.replicate 20 (0 : Byte)
  let sak :=
    match m.rekey with
    | some r => paramSet 3 (r.an * 64 + 16 + (if m.secured then m.an * 4 + 3 else 0)) 0
        (key r.kn (lowest r.rxSa) ++ if m.secured then key (r.kn - 1) (lowest (rxOf m.an)) else none20)
    | none => if m.secured then paramSet 3 (m.an * 64 + 48) 0 (key m.kn (lowest (rxOf m.an)) ++ none20) else []
  let dist :=
    match m.rekey with
    | some r => if m.server then paramSet 4 (r.an * 64 + s.mkaOffset p * 16) 0
        (beBytes 4 r.kn ++ beBytes 8 (if m.xpn then 0x0080C20001000004 else 0x0080C20001000002) ++
          Std.aesWrap (mkaKek ckn cak) r.sak) else []
    | none => []
  basic ++ live ++ potential ++ sak ++ dist

/-- An MKA PDU as the service sends it: unprotected, to the PAE group address (R96), from the MAC address in the port's SCI
(DESIGN CHOICE, log entry 87), with its ICV. -/
def State.mkaFrame (s : State) (p : Nat) (ckn cak : List Byte) : List Byte :=
  let sets := s.mkaSets p ckn cak
  let f := [0x01, 0x80, 0xC2, 0x00, 0x00, 0x03] ++ (beBytes 8 (s.mkaPort p).sci).take 6 ++ [0x88, 0x8E, 0x03, 0x05] ++
    beBytes 2 (sets.length + 16) ++ sets
  f ++ Std.cmac (mkaIck ckn cak) f

/-- The service sends a PDU on a port that can send; in far loopback it is dropped like every frame of the device (R72, R76).
A frame of the device's own has no ingress port, so the drop counts in no port's record (DESIGN CHOICE, log entry 108). -/
def State.mkaSend (s : State) (p : Nat) (b : List Byte) : State :=
  if s.cannotSend p then s
  else if s.pf F.LNE_PORT_CTRL_LOOPBACK p = 2 then s.drop 0x09 b.length 128
  else s.sendLine p {} b

/-- Meaning of MKA_HELLO_TIMER: the 2 s hello time has passed; a wanted rekey begins and a PDU leaves, once the SA region is
cleared (R100). -/
def execMkaHelloTimer (port : BitVec 7) (rxSa txSa : BitVec 18) (s : State) : Ans :=
  s.onCore fun s =>
    let p := port.toNat
    match mget s.mka.caks p with
    | some c =>
      if s.mgmt && s.mkaRuns p && s.fb F.CRY_STATUS_ZERO_DONE then
        let s1 := s.mkaBegin p rxSa.toNat txSa.toNat
        let s2 := s1.setMka p { s1.mkaPort p with msg := (s1.mkaPort p).msg + 1 }
        s2.mkaSend p (s2.mkaFrame p c.1 c.2)
      else s
    | none => s

/-! ### Timers of the service -/

/-- Meaning of MKA_LIFE_EXPIRY: 6 s without a PDU of the live peer; the port is unsecured (R95). -/
def execMkaLifeExpiry (port : BitVec 7) (s : State) : Ans :=
  s.onMgmt fun s =>
    let p := port.toNat
    let m := s.mkaPort p
    if m.run then (s.setMka p { m with peer := none, heard := none, crowd := false }).secure p false else s

/-- Meaning of SAK_LIFETIME_EXPIRY: the lifetime the store names, where not 0, has passed; a rekey is wanted (R97). -/
def execSakLifetimeExpiry (port : BitVec 7) (s : State) : Ans :=
  s.onMgmt fun s =>
    let m := s.mkaPort port.toNat
    if m.run && m.secured && m.sakLife != 0 then s.setMka port.toNat { m with want := true } else s

/-- Meaning of MKA_OLD_SA_EXPIRY: 6 s after a TX switch the RX SA that it replaced, the oldest that stands, is deleted, and
its AN slot with it where the slot still names it (R97). -/
def execMkaOldSaExpiry (port : BitVec 7) (s : State) : Ans :=
  s.onCore fun s =>
    let p := port.toNat
    let m := s.mkaPort p
    match m.oldRx with
    | [] => s
    | (an, i) :: rest =>
      let c := mgetD s.cry.cam m.scIdx {}
      let s1 := { s with cry := { s.cry with
          cam := mset s.cry.cam m.scIdx { c with anValid := putBit c.anValid an (bit c.anValid an && c.sa.getD an 0 != i) } } }
      (s1.saDelete i).setMka p { m with oldRx := rest }

/-- Meaning of MKA_PN_CHECK: ports whose TX SA has passed its LIMIT want a rekey (R105). -/
def execMkaPnCheck (s : State) : Ans :=
  s.onCore fun s =>
    (List.range 128).foldl (fun t p =>
      let m := t.mkaPort p
      let e := t.sa (t.f F.CRY_TX_SA_SA p)
      if m.run && t.fb F.CRY_TX_SA_EN p && e.valid && decide (e.limit < e.nextPn) then t.setMka p { m with want := true }
      else t) s

end Sys2Proof.Machine
end

