-- ==== Sys2Proof/Machine/Store.lean ====
section
/-! DEFINITION. Loading a configuration store (R13, R336, R338, R339, Table 14-7). -/
namespace Sys2Proof.Machine

/-! ### Refusals of a load -/

/-- The CFG_ERR bits of the blocks, with how many copies each has. -/
def errFlds : List (Fld × Nat) :=
  [(F.LNE_SLICE_STATUS_CFG_ERR, 8), (F.CRY_STATUS_CFG_ERR, 1), (F.PRS_BANK_STATUS_CFG_ERR, 1), (F.CLS_STATUS_CFG_ERR, 8),
   (F.XMT_STATUS_CFG_ERR, 1), (F.PPE_STATUS_CFG_ERR, 1), (F.BUF_STATUS_CFG_ERR, 1), (F.HBM_STATUS_CFG_ERR, 1),
   (F.QUE_STATUS_CFG_ERR, 1), (F.SHP_STATUS_CFG_ERR, 1), (F.FAB_STATUS_CFG_ERR, 1), (F.CNT_STATUS_CFG_ERR, 1),
   (F.TRN_STATUS_CFG_ERR, 1), (F.HST_STATUS_CFG_ERR, 1), (F.EVT_STATUS_CFG_ERR, 1), (F.PWR_STATUS_CFG_ERR, 1),
   (F.RED_STATUS_CFG_ERR, 1)]

/-- A block set its CFG_ERR between two states: it refused a write. -/
def State.errRose (s t : State) : Bool :=
  errFlds.any fun e => (List.range e.2).any fun i => !s.fb e.1 i && t.fb e.1 i

/-- Every CFG_ERR clear. -/
def State.clearErrs (s : State) : State :=
  errFlds.foldl (fun u e => (List.range e.2).foldl (fun v i => v.setF e.1 0 i) u) s

/-- A block refuses something that an operation writes, whether or not its CFG_ERR is set already. -/
def State.refusedBy (s : State) (f : State → State) : Bool := s.clearErrs.errRose (f s.clearErrs)

/-- A whole register is written by mcore0: whether its block refuses, and the state. LNE_PORT_CFG takes its EN in step 8
alone. -/
def State.loadReg (s : State) (a : Nat) (v : W64) : Bool × State :=
  match regAt a true with
  | none => (true, s)
  | some (r, i, j, k, _) =>
    let v1 := if r = .LNE_PORT_CFG then F.LNE_PORT_CFG_EN.put v 0 else v
    let go := fun (u : State) => u.writeReg .fw r i j k v1
    (s.refuses (s.wr r i j k (s.merged r i j k v1)) r i j k v1 || s.refusedBy go, go s)

/-- The MKA policy of a port (R95, R97): MKA runs there, afresh, under a member identifier from the random source. -/
def State.loadMka (s : State) (p : Nat) (xpn : Bool) (life scIdx prio sci : Nat) : State :=
  { s with free := s.free + 1 }.setMka p
    { run := true, xpn := xpn, sakLife := life, scIdx := scIdx, prio := prio, sci := sci, mi := Config.freeBytes s.free 12 }

/-- Load one item: whether it is refused, and the state. -/
def State.loadItem (s : State) (x : LoadItem) : Bool × State :=
  match x with
  | .reg a v => s.loadReg a.toNat v
  | .table t i w =>
    let r := s.tblPut t.toNat 0xFF i.toNat (w.map (·.toNat))
    (r.1 != stOk, r.2)
  | .exact t res key =>
    if !s.xEn t.toNat then (true, s)
    else
      let k := s.xKey t.toNat key.toNat
      let r := (s.xRead t.toNat k).xInsert (s.xFresh t.toNat 2 res.toNat k)
      (r.1.status != stOk, r.2)
  | .route t prio v m res =>
    let t := t.toNat
    let n := 80 * tdRows (s.f F.TRN_TBL_CFG_WIDTH t)
    if !s.fb F.TRN_TBL_CFG_EN t || s.fb F.TRN_TBL_CFG_MODE t ||
        (!s.fb F.TRN_TBL_CFG_KIND t && decide (n < prio.toNat)) then (true, s)
    else
      match s.tdPlace t prio.toNat (v.toNat % 2 ^ n) (m.toNat % 2 ^ n) res.toNat with
      | some (_, s1) => (false, s1)
      | none => (true, s)
  | .row w row words =>
    let r := s.rowWrite w.toNat row.toNat fun i => (words.getD i 0).toNat
    (r.1 != stOk, r.2)
  | .mka p xpn life scIdx prio sci =>
    (false, s.loadMka p.toNat xpn life.toNat scIdx.toNat prio.toNat sci.toNat)
  | .bfd id b =>
    let all := (mset s.hst.bfd id.toNat b).map (·.2)
    (!bfdInRange b || ratesOver (all.map (·.txUs)) || ratesOver (all.map (·.rxUs)), s.setBfd id.toNat b)

/-- Load items in turn, up to the first refused one. -/
def State.loadItems : List LoadItem → State → Bool × State
  | [], s => (false, s)
  | x :: t, s =>
    let r := s.loadItem x
    if r.1 then r else loadItems t r.2

/-! ### The order of Table 14-7 -/

/-- The order of a register's section, by its block. -/
def blockOrder (b : Nat) : Nat :=
  match b with
  | 0x01 | 0x02 => 4
  | 0x03 | 0x04 => 5
  | 0x05 => 6
  | 0x80 => 7
  | 0x06 => 8
  | 0x40 | 0x42 => 2
  | 0x43 | 0x44 => 9
  | 0x45 => 10
  | _ => 11

/-- The order of the section an item stands in. -/
def itemOrder (x : LoadItem) : Nat :=
  match x with
  | .reg a _ => match regAt a.toNat true with | some (r, _) => blockOrder r.block | none => 11
  | .table t _ _ =>
    let t := t.toNat
    if t ≤ 0x04 then 5 else if t ≤ 0x08 then 8 else if t = 0x09 then 4 else if t ≤ 0x12 then 9 else 10
  | .exact _ _ _ => 6
  | .route _ _ _ _ _ => 7
  | .row _ _ _ => 7
  | .mka _ _ _ _ _ _ => 4
  | .bfd _ _ => 11

/-- The commit on every slice that ends order 5 or 8 (R114, R197): whether the check refuses it, and the state. -/
def State.loadCommit (s : State) (o : Nat) : Bool × State :=
  let go := fun (u : State) => if o = 5 then (u.prsCommit 0xFF).prsSwap else if o = 8 then (u.ppeCommit 0xFF).ppeSwap else u
  (s.refusedBy go, go s)

/-- Load the items of one order. -/
def State.loadOrder (s : State) (items : List LoadItem) (o : Nat) : Bool × State :=
  let r := s.loadItems (items.filter fun (x : LoadItem) => itemOrder x == o)
  if r.1 then r else r.2.loadCommit o

/-- Load the items of several orders in turn, up to the first refusal. -/
def State.loadOrders (items : List LoadItem) : List Nat → State → Bool × State
  | [], s => (false, s)
  | o :: t, s =>
    let r := s.loadOrder items o
    if r.1 then r else loadOrders items t r.2

/-! ### The device section and step 6 (R13, R244, R248, R307, R343) -/

/-- The device section breaks a rule: the reserved mode (R13), EGQ_BASE 0 (R248), or a window out of range (R343). -/
def deviceBad (d : StoreDevice) : Bool :=
  d.mode == 3 || d.egqBase == 0 || (d.windowS != 0 && (decide (d.windowS.toNat < 60) || decide (3600 < d.windowS.toNat)))

/-- The proof window takes a new length: what has passed of the old one counts against it. -/
def State.loadWindow (s : State) (w : Nat) : State :=
  let gone := s.f F.MGT_PROOF_WINDOW_S - s.f F.MGT_PROOF_REMAIN_S
  let s1 := s.setF F.MGT_PROOF_WINDOW_S w
  if s.fb F.MGT_STATUS_PROOF then s1.setF F.MGT_PROOF_REMAIN_S (w - gone) else s1

/-- The requested spares go to a new boot record where one differs from the spare in use (R244). -/
def State.loadSpares (s : State) (l : List (BitVec 5)) : State :=
  if (List.range 4).all fun k => (l.getD k 31).toNat == s.f F.HBM_STACK_CFG_SPARE k then s
  else s.writeRec { s.boot.running with spares := (List.range 4).map fun k => 0x80 + (l.getD k 31).toNat }

/-- The device section takes effect. -/
def State.loadDevice (s : State) (d : StoreDevice) : State :=
  let s1 := { s with boot := { s.boot with mode := d.mode.toNat, names := d.names.map fun (n : BitVec 10) => n.toNat } }
  let s2 := (s1.setF F.FAB_CTRL_MY_EP d.myEp.toNat).setF F.QUE_CTRL_EGQ_BASE d.egqBase.toNat
  let s3 := (s2.setF F.RED_CTRL_MEMBER (b2n d.member)).setF F.RED_CTRL_PEER_EP d.peerEp.toNat
  let s4 := (s3.loadWindow (if d.windowS = 0 then 600 else d.windowS.toNat)).setF F.MGT_STATUS_CONFIRM_REQ (b2n d.confirm)
  (s4.setSynced (s4.fb F.RED_STATUS_SYNCED)).cond 6 (s4.doublet && !s4.twinUp)

/-- What a device section sets outside the CORE group, as it stands. -/
def State.deviceSet (s : State) : DeviceSet :=
  { mode := s.boot.mode, names := s.boot.names, window := s.f F.MGT_PROOF_WINDOW_S, confirm := s.f F.MGT_STATUS_CONFIRM_REQ
    member := s.f F.RED_CTRL_MEMBER, peer := s.f F.RED_CTRL_PEER_EP }

/-- A refused store's device section is taken back: what it set outside the CORE group is as the load found it. -/
def State.deviceBack (s : State) : State :=
  let d := s.boot.before
  let s1 := { s with boot := { s.boot with mode := d.mode, names := d.names } }
  let s2 := (s1.setF F.RED_CTRL_MEMBER d.member).setF F.RED_CTRL_PEER_EP d.peer
  let s3 := (s2.loadWindow d.window).setF F.MGT_STATUS_CONFIRM_REQ d.confirm
  (s3.setSynced (s3.fb F.RED_STATUS_SYNCED)).cond 6 (s3.doublet && !s3.twinUp)

/-- What the items of a refused store set outside the CORE group is taken back: their registers, the time base, BFD sessions
and MKA policies are those of `s`, the state the load began in. -/
def State.itemsBack (s t : State) (items : List LoadItem) : State :=
  let t1 := items.foldl (fun (u : State) x => match x with
    | .reg a _ =>
      match regAt a.toNat true with
      | some (r, i, j, k, _) => if coreAddr a.toNat then u else u.wr r i j k (s.rd r i j k)
      | none => u
    | _ => u) t
  { t1 with tb := s.tb, hst := { t1.hst with bfd := s.hst.bfd }, mka := s.mka }

/-- A store copy is refused whole: its device section is taken back, BOOT_ERR, the CORE group restarts, and the copy is not
tried again (R338). -/
def State.storeRefused (s : State) (copy : Nat) : State :=
  let s1 := { s with boot := { s.boot with
    triedStore := s.boot.triedStore ++ [copy], loadRefused := true, applyWait := false } }
  (s1.deviceBack.bootErr 0x0B).requestCore none

/-- No store copy qualifies or loads (R339): the device runs without one. -/
def State.runNoStore (s : State) : State :=
  let s1 := (s.setStage 5).setF F.MGT_STATUS_NO_STORE 1
  let s2 := { s1 with boot := { s1.boot with triedStore := [], mode := 0, names := [], applyWait := false } }
  (s2.setSynced (s2.fb F.RED_STATUS_SYNCED)).cond 6 false

/-- A store copy may be tried: it was not refused since the start, and it qualifies; else the code that says why not. -/
def State.storeTry (s : State) (copy : Nat) : Nat :=
  if s.boot.triedStore.contains copy then 0x0B else s.storeCheck copy s.boot.fmtMin s.boot.fmtMax

/-- The copy is taken: the device section, the sections of order 2, and BUILD (R207). -/
def State.storeBegin (s : State) (copy : Nat) (d : StoreDevice) (items : List LoadItem) : State :=
  let s1 := ((s.setF F.MGT_STATUS_STORE_COPY copy).setF F.MGT_STATUS_NO_STORE 0).unsecureAll
  let s2 := { s1 with boot := { s1.boot with loadRefused := false, before := s1.deviceSet, spareAsk := d.spares }
                      mka := { s1.mka with ports := [] } }
  if deviceBad d then s2.storeRefused copy
  else
    let r := State.loadOrders items [2] (s2.loadDevice d)
    let t := r.2.bufBuild
    if r.1 || r.2.refusedBy (·.bufBuild) then t.storeRefused copy else { t with boot := { t.boot with applyWait := true } }

/-- Meaning of STORE_READ_DONE: mcore0 takes the copy STORE_ACTIVE names if it qualifies, else the other, and applies its
orders 1 to 3; with neither the device runs without a store. `dev` and `items` are what the taken copy's sections of orders
1 and 2 hold (R338, R339). -/
def execStoreReadDone (dev : StoreDevice) (items : List LoadItem) (s : State) : Ans :=
  s.onMgmt fun s =>
    if s.stage = 3 ∧ s.core ∧ !s.grp.flush ∧ !s.boot.applyWait then
      let a := s.boot.running.storeActive % 2
      let ca := s.storeTry a
      let cb := s.storeTry (1 - a)
      if ca = 0 then s.storeBegin a dev items
      else if cb = 0 then (s.bootErr ca).storeBegin (1 - a) dev items
      else (s.bootErr cb).runNoStore
    else s

/-! ### Steps 7 and 8 -/

/-- The blocks that clear or build report done, and HBM is ready (order 3 of Table 14-7). -/
def State.loadReady (s : State) : Bool :=
  s.fb F.HBM_STATUS_READY && s.fb F.BUF_STATUS_CFG_DONE && s.fb F.XMT_STATUS_CLEAR_DONE && s.fb F.TRN_STATUS_CLEAR_DONE

/-- EN of a port sets: whether LNE refuses, and the state. -/
def State.loadPort (s : State) (p : Nat) : Bool × State :=
  let v := F.LNE_PORT_CFG_EN.put (s.rd .LNE_PORT_CFG (p / 16) (p % 16) 0) 1
  (!s.portCfgOk p v, s.writeReg .fw .LNE_PORT_CFG (p / 16) (p % 16) 0 v)

/-- The ports a store names are enabled in turn, up to a refused one. -/
def State.loadPorts : List (BitVec 7) → State → Bool × State
  | [], s => (false, s)
  | p :: t, s =>
    let r := s.loadPort p.toNat
    if r.1 then r else loadPorts t r.2

/-- Meaning of STORE_APPLY_RESUME: orders 4 to 11 are applied, CFG_LOCK sets, and the named ports are enabled; a refused
section gives up the copy, and so does a buffer build that failed its check (R207). The spares that the store requests go to
the boot record once it has loaded (R244). `items` and `ports` are what the taken copy holds (R336, R338). -/
def execStoreApplyResume (items : List LoadItem) (ports : List (BitVec 7)) (s : State) : Ans :=
  s.onMgmt fun s =>
    let copy := s.f F.MGT_STATUS_STORE_COPY
    if s.stage = 3 ∧ s.core ∧ !s.grp.flush ∧ s.boot.applyWait ∧ !s.buf.building ∧ !s.fb F.BUF_STATUS_CFG_DONE then
      s.storeRefused copy
    else if s.stage = 3 ∧ s.core ∧ !s.grp.flush ∧ s.boot.applyWait ∧ s.loadReady then
      let r := State.loadOrders items [4, 5, 6, 7, 8, 9, 10, 11] s
      if r.1 then (s.itemsBack r.2 items).storeRefused copy
      else
        let t := State.loadPorts ports ((r.2.setStage 4).setF F.MGT_CTRL_CFG_LOCK 1)
        if t.1 then (s.itemsBack (t.2.setStage 3) items).storeRefused copy
        else { t.2 with boot := { t.2.boot with applyWait := false, triedStore := [] } }.loadSpares s.boot.spareAsk
    else s

end Sys2Proof.Machine
end

