-- ==== Sys2Proof/Machine/Dispatch.lean ====
section
/-! DEFINITION. One arm per command: its meaning, or its refusal by name. -/
namespace Sys2Proof.Machine

/-- The effect of a command on everything but the queue of waiting commands. -/
def exec (i : Instr) (s : State) : Host.Outcome State Fault Refusal :=
  match i with
  | .registerWrite path space addr bytesOk data => Sys2Proof.Machine.execRegisterWrite path space addr bytesOk data s
  | .rcFieldRead path addr bytesOk dwords => Sys2Proof.Machine.execRcFieldRead path addr bytesOk dwords s
  | .lowWordRead path addr bytesOk dwords => Sys2Proof.Machine.execLowWordRead path addr bytesOk dwords s
  | .heldAccessExecute die => Sys2Proof.Machine.execHeldAccessExecute die s
  | .picaBoundary => Sys2Proof.Machine.execPicaBoundary s
  | .picaMark die low => Sys2Proof.Machine.execPicaMark die low s
  | .wholeSecond pcs => Sys2Proof.Machine.execWholeSecond s pcs
  | .ppsOutFall => Sys2Proof.Machine.execPpsOutFall s
  | .ppsEdge => Sys2Proof.Machine.execPpsEdge s
  | .ppsTimeout => Sys2Proof.Machine.execPpsTimeout s
  | .todMessage msSinceEdge bytes => Sys2Proof.Machine.execTodMessage msSinceEdge bytes s
  | .todTxSend => Sys2Proof.Machine.execTodTxSend s
  | .timAdj path step => Sys2Proof.Machine.execTimAdj path step s
  | .timTodNsRead path => Sys2Proof.Machine.execTimTodNsRead path s
  | .porstNLow ns => Sys2Proof.Machine.execPorstNLow ns s
  | .porstNRelease testMode => Sys2Proof.Machine.execPorstNRelease testMode s
  | .pllLock locked => Sys2Proof.Machine.execPllLock locked s
  | .sysRstNLow ns => Sys2Proof.Machine.execSysRstNLow ns s
  | .sysRstNRelease => Sys2Proof.Machine.execSysRstNRelease s
  | .perstNLow ns => Sys2Proof.Machine.execPerstNLow ns s
  | .perstNRelease => Sys2Proof.Machine.execPerstNRelease s
  | .pcieHotReset => Sys2Proof.Machine.execPcieHotReset s
  | .functionLevelReset => Sys2Proof.Machine.execFunctionLevelReset s
  | .coreReset path => Sys2Proof.Machine.execCoreReset path s
  | .mgmtReset path => Sys2Proof.Machine.execMgmtReset path s
  | .resetFlushDone => Sys2Proof.Machine.execResetFlushDone s
  | .coreResetRelease => Sys2Proof.Machine.execCoreResetRelease s
  | .cryZeroDone => Sys2Proof.Machine.execCryZeroDone s
  | .xmtClearDone => Sys2Proof.Machine.execXmtClearDone s
  | .trnClearDone bad => Sys2Proof.Machine.execTrnClearDone s bad
  | .hbmStartupDone h0 h1 h2 h3 => Sys2Proof.Machine.execHbmStartupDone h0 h1 h2 h3 s
  | .imageDigestDone fuseOk => Sys2Proof.Machine.execImageDigestDone fuseOk s
  | .storeReadDone dev items => Sys2Proof.Machine.execStoreReadDone dev items s
  | .storeApplyResume items ports => Sys2Proof.Machine.execStoreApplyResume items ports s
  | .lineFrameReceive port frame cut gfp => Sys2Proof.Machine.execLineFrameReceive port frame cut gfp s
  | .alignPattern group lane position hit => Sys2Proof.Machine.execAlignPattern group lane position hit s
  | .otnFrameReceive port oh => Sys2Proof.Machine.execOtnFrameReceive port oh s
  | .gfpCoreHeader port chec => Sys2Proof.Machine.execGfpCoreHeader port chec s
  | .defectChange port defect raw => Sys2Proof.Machine.execDefectChange port defect raw s
  | .defectTimer port defect present => Sys2Proof.Machine.execDefectTimer port defect present s
  | .portEnable path port value => Sys2Proof.Machine.execPortEnable path port value s
  | .portDisable path port value => Sys2Proof.Machine.execPortDisable path port value s
  | .portRestart path port value => Sys2Proof.Machine.execPortRestart path port value s
  | .lneTxTsRead path port => Sys2Proof.Machine.execLneTxTsRead path port s
  | .saCacheFill sa bad => Sys2Proof.Machine.execSaCacheFill sa bad s
  | .espInbound slice => Sys2Proof.Machine.execEspInbound slice s
  | .crySaSwitch path value => Sys2Proof.Machine.execCrySaSwitch path value s
  | .cryNoticeRead path => Sys2Proof.Machine.execCryNoticeRead path s
  | .mkpduReceive port pdu rxSa txSa => Sys2Proof.Machine.execMkpduReceive port pdu rxSa txSa s
  | .mkaHelloTimer port rxSa txSa => Sys2Proof.Machine.execMkaHelloTimer port rxSa txSa s
  | .mkaLifeExpiry port => Sys2Proof.Machine.execMkaLifeExpiry port s
  | .sakLifetimeExpiry port => Sys2Proof.Machine.execSakLifetimeExpiry port s
  | .mkaOldSaExpiry port => Sys2Proof.Machine.execMkaOldSaExpiry port s
  | .mkaPnCheck => Sys2Proof.Machine.execMkaPnCheck s
  | .headAdmit slice => Sys2Proof.Machine.execHeadAdmit slice s
  | .classify thread => Sys2Proof.Machine.execClassify thread s
  | .threadLoaded thread => Sys2Proof.Machine.execThreadLoaded thread s
  | .prsCommit path value => Sys2Proof.Machine.execPrsCommit path value s
  | .prsCommitEnd => Sys2Proof.Machine.execPrsCommitEnd s
  | .exactMatchLookup far bad => Sys2Proof.Machine.execExactMatchLookup far bad s
  | .learnApply far => Sys2Proof.Machine.execLearnApply far s
  | .ageingTick table => Sys2Proof.Machine.execAgeingTick table s
  | .sweeperVisit far bad => Sys2Proof.Machine.execSweeperVisit far bad s
  | .sweeperRemoval far => Sys2Proof.Machine.execSweeperRemoval far s
  | .tableDisable path table value => Sys2Proof.Machine.execTableDisable path table value s
  | .tableFreeDone table => Sys2Proof.Machine.execTableFreeDone table s
  | .learnNoticeForward => Sys2Proof.Machine.execLearnNoticeForward s
  | .fenceDone => Sys2Proof.Machine.execFenceDone s
  | .fenceSlow => Sys2Proof.Machine.execFenceSlow s
  | .tdSearch port fault => Sys2Proof.Machine.execTdSearch port fault s
  | .tdScrubRow upsets => Sys2Proof.Machine.execTdScrubRow upsets s
  | .runMove path value => Sys2Proof.Machine.execRunMove path value s
  | .runMoveEnd => Sys2Proof.Machine.execRunMoveEnd s
  | .tdPortRetire path value => Sys2Proof.Machine.execTdPortRetire path value s
  | .engineNop q => Sys2Proof.Machine.execEngineNop q s
  | .add q rd rs1 rs2 => Sys2Proof.Machine.execAdd q rd rs1 rs2 s
  | .sub q rd rs1 rs2 => Sys2Proof.Machine.execSub q rd rs1 rs2 s
  | .and q rd rs1 rs2 => Sys2Proof.Machine.execAnd q rd rs1 rs2 s
  | .or q rd rs1 rs2 => Sys2Proof.Machine.execOr q rd rs1 rs2 s
  | .xor q rd rs1 rs2 => Sys2Proof.Machine.execXor q rd rs1 rs2 s
  | .shl q rd rs1 rs2 => Sys2Proof.Machine.execShl q rd rs1 rs2 s
  | .shr q rd rs1 rs2 => Sys2Proof.Machine.execShr q rd rs1 rs2 s
  | .sar q rd rs1 rs2 => Sys2Proof.Machine.execSar q rd rs1 rs2 s
  | .mul q rd rs1 rs2 => Sys2Proof.Machine.execMul q rd rs1 rs2 s
  | .slt q rd rs1 rs2 => Sys2Proof.Machine.execSlt q rd rs1 rs2 s
  | .sltu q rd rs1 rs2 => Sys2Proof.Machine.execSltu q rd rs1 rs2 s
  | .seq q rd rs1 rs2 => Sys2Proof.Machine.execSeq q rd rs1 rs2 s
  | .cmov q rd rs1 rs2 => Sys2Proof.Machine.execCmov q rd rs1 rs2 s
  | .csum q rd rs1 rs2 => Sys2Proof.Machine.execCsum q rd rs1 rs2 s
  | .crc q rd rs1 rs2 => Sys2Proof.Machine.execCrc q rd rs1 rs2 s
  | .addi q rd rs1 imm => Sys2Proof.Machine.execAddi q rd rs1 imm s
  | .andi q rd rs1 imm => Sys2Proof.Machine.execAndi q rd rs1 imm s
  | .ori q rd rs1 imm => Sys2Proof.Machine.execOri q rd rs1 imm s
  | .xori q rd rs1 imm => Sys2Proof.Machine.execXori q rd rs1 imm s
  | .shli q rd rs1 imm => Sys2Proof.Machine.execShli q rd rs1 imm s
  | .shri q rd rs1 imm => Sys2Proof.Machine.execShri q rd rs1 imm s
  | .sari q rd rs1 imm => Sys2Proof.Machine.execSari q rd rs1 imm s
  | .movi q rd imm => Sys2Proof.Machine.execMovi q rd imm s
  | .lih q rd rs1 imm => Sys2Proof.Machine.execLih q rd rs1 imm s
  | .slti q rd rs1 imm => Sys2Proof.Machine.execSlti q rd rs1 imm s
  | .seqi q rd rs1 imm => Sys2Proof.Machine.execSeqi q rd rs1 imm s
  | .ext q rd rs1 pos lenm1 => Sys2Proof.Machine.execExt q rd rs1 pos lenm1 s
  | .ins q rd rs1 pos lenm1 => Sys2Proof.Machine.execIns q rd rs1 pos lenm1 s
  | .ld8 q rd rs1 off => Sys2Proof.Machine.execLd8 q rd rs1 off s
  | .ld16 q rd rs1 off => Sys2Proof.Machine.execLd16 q rd rs1 off s
  | .ld32 q rd rs1 off => Sys2Proof.Machine.execLd32 q rd rs1 off s
  | .ld64 q rd rs1 off => Sys2Proof.Machine.execLd64 q rd rs1 off s
  | .st8 q rd rs1 off => Sys2Proof.Machine.execSt8 q rd rs1 off s
  | .st16 q rd rs1 off => Sys2Proof.Machine.execSt16 q rd rs1 off s
  | .st32 q rd rs1 off => Sys2Proof.Machine.execSt32 q rd rs1 off s
  | .st64 q rd rs1 off => Sys2Proof.Machine.execSt64 q rd rs1 off s
  | .hins q rs1 imm => Sys2Proof.Machine.execHins q rs1 imm s
  | .hdel q rs1 imm => Sys2Proof.Machine.execHdel q rs1 imm s
  | .atadd q rd rs1 rs2 => Sys2Proof.Machine.execAtadd q rd rs1 rs2 s
  | .dom q rs1 => Sys2Proof.Machine.execDom q rs1 s
  | .cpy q ring reason => Sys2Proof.Machine.execCpy q ring reason s
  | .mirr q session => Sys2Proof.Machine.execMirr q session s
  | .cnta q rs1 rs2 => Sys2Proof.Machine.execCnta q rs1 rs2 s
  | .beq q rs1 rs2 off => Sys2Proof.Machine.execBeq q rs1 rs2 off s
  | .bne q rs1 rs2 off => Sys2Proof.Machine.execBne q rs1 rs2 off s
  | .blt q rs1 rs2 off => Sys2Proof.Machine.execBlt q rs1 rs2 off s
  | .bge q rs1 rs2 off => Sys2Proof.Machine.execBge q rs1 rs2 off s
  | .bltu q rs1 rs2 off => Sys2Proof.Machine.execBltu q rs1 rs2 off s
  | .bgeu q rs1 rs2 off => Sys2Proof.Machine.execBgeu q rs1 rs2 off s
  | .jmp q off => Sys2Proof.Machine.execJmp q off s
  | .call q off => Sys2Proof.Machine.execCall q off s
  | .jr q rs1 => Sys2Proof.Machine.execJr q rs1 s
  | .punt q ring reason => Sys2Proof.Machine.execPunt q ring reason s
  | .lkx q rd rs1 table touch learn => Sys2Proof.Machine.execLkx q rd rs1 table touch learn s
  | .lkt q rd rs1 table width => Sys2Proof.Machine.execLkt q rd rs1 table width s
  | .wait q => Sys2Proof.Machine.execWait q s
  | .rdc q rd sel => Sys2Proof.Machine.execRdc q rd sel s
  | .send q => Sys2Proof.Machine.execSend q s
  | .drop q reason => Sys2Proof.Machine.execDrop q reason s
  | .lookupResponse thread => Sys2Proof.Machine.execLookupResponse thread s
  | .deadlineExpiry thread => Sys2Proof.Machine.execDeadlineExpiry thread s
  | .threadFree thread => Sys2Proof.Machine.execThreadFree thread s
  | .robRelease slice => Sys2Proof.Machine.execRobRelease slice s
  | .voteWindowReceive dir copies => Sys2Proof.Machine.execVoteWindowReceive dir copies s
  | .autoRestart => Sys2Proof.Machine.execAutoRestart s
  | .tplRetire path value => Sys2Proof.Machine.execTplRetire path value s
  | .ppeCommit path value => Sys2Proof.Machine.execPpeCommit path value s
  | .ppeCommitSwap => Sys2Proof.Machine.execPpeCommitSwap s
  | .ppeRetire path value => Sys2Proof.Machine.execPpeRetire path value s
  | .perfCounterWrap cluster counter engine thread pc => Sys2Proof.Machine.execPerfCounterWrap cluster counter engine thread pc s
  | .pcFreeze path value => Sys2Proof.Machine.execPcFreeze path value s
  | .pcSnapshot path value => Sys2Proof.Machine.execPcSnapshot path value s
  | .pcSampleRead path cluster => Sys2Proof.Machine.execPcSampleRead path cluster s
  | .descriptorGroupArrival slice => Sys2Proof.Machine.execDescriptorGroupArrival slice s
  | .frameDataArrival slice => Sys2Proof.Machine.execFrameDataArrival slice s
  | .pairTimeout slice => Sys2Proof.Machine.execPairTimeout slice s
  | .queueAdmit => Sys2Proof.Machine.execQueueAdmit s
  | .mcReplicate => Sys2Proof.Machine.execMcReplicate s
  | .bundleWrite => Sys2Proof.Machine.execBundleWrite s
  | .bundleRestore qid bad => Sys2Proof.Machine.execBundleRestore qid bad s
  | .restoreRetry qid => Sys2Proof.Machine.execRestoreRetry qid s
  | .bufBuild path value => Sys2Proof.Machine.execBufBuild path value s
  | .bufBuildDone => Sys2Proof.Machine.execBufBuildDone s
  | .loupeAuditStart => Sys2Proof.Machine.execLoupeAuditStart s
  | .loupeStep => Sys2Proof.Machine.execLoupeStep s
  | .loupeAuditEnd => Sys2Proof.Machine.execLoupeAuditEnd s
  | .loupeReportRead path => Sys2Proof.Machine.execLoupeReportRead path s
  | .hbmReadComplete la bytes cls res => Sys2Proof.Machine.execHbmReadComplete la bytes cls res s
  | .hbmCmdParity stack pch cls => Sys2Proof.Machine.execHbmCmdParity stack pch cls s
  | .hbmRetire path value => Sys2Proof.Machine.execHbmRetire path value s
  | .migrationBlockCopy stack bad fixed => Sys2Proof.Machine.execMigrationBlockCopy stack bad s fixed
  | .refresh stack temp double => Sys2Proof.Machine.execRefresh stack temp double s
  | .patrolScrub res => Sys2Proof.Machine.execPatrolScrub res s
  | .pchIdleTimeout stack pch => Sys2Proof.Machine.execPchIdleTimeout stack pch s
  | .dequeueSelect node badLink => Sys2Proof.Machine.execDequeueSelect node badLink s
  | .shaperRefill level node => Sys2Proof.Machine.execShaperRefill level node s
  | .queueFlush path value => Sys2Proof.Machine.execQueueFlush path value s
  | .queueFlushDone => Sys2Proof.Machine.execQueueFlushDone s
  | .galleyEnable path port value => Sys2Proof.Machine.execGalleyEnable path port value s
  | .galleySwitch path port value => Sys2Proof.Machine.execGalleySwitch path port value s
  | .galleyIntervalEnd port => Sys2Proof.Machine.execGalleyIntervalEnd port s
  | .galleyCycleStart port => Sys2Proof.Machine.execGalleyCycleStart port s
  | .egressEdit slice => Sys2Proof.Machine.execEgressEdit slice s
  | .lineFrameTransmit port => Sys2Proof.Machine.execLineFrameTransmit port s
  | .dispatch => Sys2Proof.Machine.execDispatch s
  | .fabricLaneFrameSend lane => Sys2Proof.Machine.execFabricLaneFrameSend lane s
  | .fabricLaneFrameReceive lane frame => Sys2Proof.Machine.execFabricLaneFrameReceive lane frame s
  | .creditGenerate port => Sys2Proof.Machine.execCreditGenerate port s
  | .onRefresh voq => Sys2Proof.Machine.execOnRefresh voq s
  | .reassemblyTimeout src tc => Sys2Proof.Machine.execReassemblyTimeout src tc s
  | .reassemblyComplete => Sys2Proof.Machine.execReassemblyComplete s
  | .fabLaneRetire path value => Sys2Proof.Machine.execFabLaneRetire path value s
  | .twinLaneFrameReceive lane frame => Sys2Proof.Machine.execTwinLaneFrameReceive lane frame s
  | .helloSend => Sys2Proof.Machine.execHelloSend s
  | .mirrorResendTimeout => Sys2Proof.Machine.execMirrorResendTimeout s
  | .twinLinkTimeout => Sys2Proof.Machine.execTwinLinkTimeout s
  | .snapshotWalkStep => Sys2Proof.Machine.execSnapshotWalkStep s
  | .redTwinRetire path value => Sys2Proof.Machine.execRedTwinRetire path value s
  | .arbRoleChange high => Sys2Proof.Machine.execArbRoleChange high s
  | .promotion waited => Sys2Proof.Machine.execPromotion waited s
  | .arbHealthToggle answers => Sys2Proof.Machine.execArbHealthToggle answers s
  | .proofWatchdogExpiry => Sys2Proof.Machine.execProofWatchdogExpiry s
  | .healthConfirmed fuseOk => Sys2Proof.Machine.execHealthConfirmed fuseOk s
  | .confirm path => Sys2Proof.Machine.execConfirm path s
  | .reject path => Sys2Proof.Machine.execReject path s
  | .flashOpDone good => Sys2Proof.Machine.execFlashOpDone good s
  | .wqDoorbell path wq value => Sys2Proof.Machine.execWqDoorbell path wq value s
  | .wqEntryFetch wq words => Sys2Proof.Machine.execWqEntryFetch wq words s
  | .hstWqInval path wq index => Sys2Proof.Machine.execHstWqInval path wq index s
  | .wqDisable path wq value => Sys2Proof.Machine.execWqDisable path wq value s
  | .cqConsume path cq value => Sys2Proof.Machine.execCqConsume path cq value s
  | .nop wq => Sys2Proof.Machine.execNop wq s
  | .fence wq => Sys2Proof.Machine.execFence wq s
  | .fenceWait wq => Sys2Proof.Machine.execFenceWait wq s
  | .tblWrite wq => Sys2Proof.Machine.execTblWrite wq s
  | .tblRead wq hostOk => Sys2Proof.Machine.execTblRead wq hostOk s
  | .emInsert wq => Sys2Proof.Machine.execEmInsert wq s
  | .emUpdate wq => Sys2Proof.Machine.execEmUpdate wq s
  | .emDelete wq => Sys2Proof.Machine.execEmDelete wq s
  | .emRead wq => Sys2Proof.Machine.execEmRead wq s
  | .tdAdd wq => Sys2Proof.Machine.execTdAdd wq s
  | .tdChange wq => Sys2Proof.Machine.execTdChange wq s
  | .tdDelete wq => Sys2Proof.Machine.execTdDelete wq s
  | .rowWrite wq => Sys2Proof.Machine.execRowWrite wq s
  | .rowResult wq => Sys2Proof.Machine.execRowResult wq s
  | .rowDelete wq => Sys2Proof.Machine.execRowDelete wq s
  | .rowRead wq hostOk => Sys2Proof.Machine.execRowRead wq hostOk s
  | .saInstall wq => Sys2Proof.Machine.execSaInstall wq s
  | .saUpdate wq => Sys2Proof.Machine.execSaUpdate wq s
  | .saDelete wq => Sys2Proof.Machine.execSaDelete wq s
  | .saRead wq hostOk => Sys2Proof.Machine.execSaRead wq hostOk s
  | .cakLoad wq => Sys2Proof.Machine.execCakLoad wq s
  | .loadArm wq => Sys2Proof.Machine.execLoadArm wq s
  | .armedLoadApply channel bad => Sys2Proof.Machine.execArmedLoadApply channel s bad
  | .bfdSet wq => Sys2Proof.Machine.execBfdSet wq s
  | .bfdDel wq => Sys2Proof.Machine.execBfdDel wq s
  | .imgBegin wq => Sys2Proof.Machine.execImgBegin wq s
  | .imgBlock wq data => Sys2Proof.Machine.execImgBlock wq data s
  | .imgEnd wq => Sys2Proof.Machine.execImgEnd wq s
  | .imgStart wq => Sys2Proof.Machine.execImgStart wq s
  | .keySet wq => Sys2Proof.Machine.execKeySet wq s
  | .sessionOpen path admin => Sys2Proof.Machine.execSessionOpen path admin s
  | .sessionRespond path => Sys2Proof.Machine.execSessionRespond path s
  | .sessionClose path => Sys2Proof.Machine.execSessionClose path s
  | .challengeTimeout path => Sys2Proof.Machine.execChallengeTimeout path s
  | .sessionLockExpiry path => Sys2Proof.Machine.execSessionLockExpiry path s
  | .bar2Read offset bytes bad => Sys2Proof.Machine.execBar2Read offset bytes s bad
  | .bar2Write offset data => Sys2Proof.Machine.execBar2Write offset data s
  | .puntRingWrite ring => Sys2Proof.Machine.execPuntRingWrite ring s
  | .injectDoorbell path ring value => Sys2Proof.Machine.execInjectDoorbell path ring value s
  | .injectSlotTake ring slot => Sys2Proof.Machine.execInjectSlotTake ring slot s
  | .dmaDoorbell path channel value => Sys2Proof.Machine.execDmaDoorbell path channel value s
  | .dmaDescriptorComplete channel desc host => Sys2Proof.Machine.execDmaDescriptorComplete channel desc host s
  | .dmaBusError channel desc host moved => Sys2Proof.Machine.execDmaBusError channel desc host moved s
  | .dmaLateError channel => Sys2Proof.Machine.execDmaLateError channel s
  | .dmaChannelDisable path channel value => Sys2Proof.Machine.execDmaChannelDisable path channel value s
  | .bfdPacketReceive ring => Sys2Proof.Machine.execBfdPacketReceive ring s
  | .bfdTransmitTimer session => Sys2Proof.Machine.execBfdTransmitTimer session s
  | .bfdDetectTimeout session => Sys2Proof.Machine.execBfdDetectTimeout session s
  | .smbusAddressSet addr pecOk => Sys2Proof.Machine.execSmbusAddressSet addr pecOk s
  | .smbusDwordAccess write pecOk => Sys2Proof.Machine.execSmbusDwordAccess write pecOk s
  | .smbusStretchTimeout => Sys2Proof.Machine.execSmbusStretchTimeout s
  | .eventRaise source => Sys2Proof.Machine.execEventRaise source s
  | .holdoffExpiry vector => Sys2Proof.Machine.execHoldoffExpiry vector s
  | .evtSrcCfgWrite path source value => Sys2Proof.Machine.execEvtSrcCfgWrite path source value s
  | .evtSwSet path value => Sys2Proof.Machine.execEvtSwSet path value s
  | .evtLogRecRead path => Sys2Proof.Machine.execEvtLogRecRead path s
  | .statUpdate bank => Sys2Proof.Machine.execStatUpdate bank s
  | .counterFlush key bad => Sys2Proof.Machine.execCounterFlush key bad s
  | .cntSnapshot path value => Sys2Proof.Machine.execCntSnapshot path value s
  | .snapshotDone => Sys2Proof.Machine.execSnapshotDone s
  | .cntRelease path value => Sys2Proof.Machine.execCntRelease path value s
  | .freezeExpiry => Sys2Proof.Machine.execFreezeExpiry s
  | .exportPeriod => Sys2Proof.Machine.execExportPeriod s
  | .exportPulse => Sys2Proof.Machine.execExportPulse s
  | .powerStateEntry group => Sys2Proof.Machine.execPowerStateEntry group s
  | .powerStateExit group => Sys2Proof.Machine.execPowerStateExit group s
  | .ltrWrite path group value => Sys2Proof.Machine.execLtrWrite path group value s
  | .p4Request path value => Sys2Proof.Machine.execP4Request path value s
  | .p4DrainTimeout => Sys2Proof.Machine.execP4DrainTimeout s
  | .p4Release path value => Sys2Proof.Machine.execP4Release path value s
  | .p4ExitDone => Sys2Proof.Machine.execP4ExitDone s
  | .thermalSample temps => Sys2Proof.Machine.execThermalSample temps s
  | .thermalTripRelease => Sys2Proof.Machine.execThermalTripRelease s
  | .railOutOfTolerance => Sys2Proof.Machine.execRailOutOfTolerance s
  | .referenceClockLoss ref => Sys2Proof.Machine.execReferenceClockLoss ref s
  | .jtagInstruction instr => Sys2Proof.Machine.execJtagInstruction instr s
  | .twinLaneFrameSend lane => Sys2Proof.Machine.execTwinLaneFrameSend lane s
  | .powerStateExitDone group => Sys2Proof.Machine.execPowerStateExitDone group s
  | .reassemblyRetry => Sys2Proof.Machine.execReassemblyRetry s
  | .laneTestCheck lane locked errors => Sys2Proof.Machine.execLaneTestCheck lane locked errors s
  | .pcieLinkUp => Sys2Proof.Machine.execPcieLinkUp s
  | .referenceClockReturn ref => Sys2Proof.Machine.execReferenceClockReturn ref s

end Sys2Proof.Machine
end

