-- ==== Sys2Proof/WellFormed.lean ====
section
/-! DEFINITION. Which commands are well formed: their operands have the shapes the spec gives them. The operands' types
bound most of them; the checks here are the lengths of lists and the ranges of plain numbers. -/
namespace Sys2Proof

/-- The shape of a device section: four requested spares (Table 14-7). -/
def deviceShape (d : StoreDevice) : Bool := d.spares.length == 4

/-- The shape of what a store section sets: a table entry has at most nine words, a raw row's record at most fourteen. -/
def itemShape (x : LoadItem) : Bool :=
  match x with
  | .reg a _ => a.toNat % 4 == 0
  | .table _ _ w => decide (w.length ≤ 9)
  | .exact _ _ _ => true
  | .route _ _ _ _ _ => true
  | .row _ _ w => decide (w.length ≤ 14)
  | .mka _ _ _ _ _ _ => true
  | .bfd _ b => b.localAddr.length == 16 && b.peerAddr.length == 16

/-- Whether the operands of a command have the shape the spec gives them: an aligned register write of one or two dwords, a
read of one or two; a BAR2 access of 1 to 4,096 bytes; the 22 logic die sensors; a ToD message of 10 bytes; three copies of
a Triplet window; lane frames of three cells; 4,096 bytes of an image block; work-queue units and DMA descriptors of whole
units; an inject slot of at least its 32-byte descriptor; and the shapes of store items. -/
def WellFormed (i : Instr) : Bool :=
  match i with
  | .registerWrite _ _ a _ d => a.toNat % 4 == 0 && (d.length == 1 || d.length == 2)
  | .rcFieldRead _ a _ n => a.toNat % 4 == 0 && (n == 1 || n == 2)
  | .lowWordRead _ a _ n => a.toNat % 4 == 0 && (n == 1 || n == 2)
  | .bar2Read _ n _ => decide (1 ≤ n) && decide (n ≤ 4096)
  | .bar2Write _ d => decide (1 ≤ d.length) && decide (d.length ≤ 4096)
  | .thermalSample t => t.length == 22
  | .todMessage _ b => b.length == 10
  | .voteWindowReceive _ c => c.length == 3
  | .fabricLaneFrameReceive _ f => f.cells.length == 3
  | .twinLaneFrameReceive _ f => f.cells.length == 3
  | .imgBlock _ d => match d with | some b => b.length == 4096 | none => true
  | .wqEntryFetch _ w => match w with | some l => l.length % 4 == 0 && decide (4 ≤ l.length) | none => true
  | .dmaDescriptorComplete _ d _ => d.length == 4
  | .dmaBusError _ d _ _ => d.length == 4
  | .injectSlotTake _ b => decide (32 ≤ b.length)
  | .storeReadDone d l => deviceShape d && l.all itemShape
  | .storeApplyResume l _ => l.all itemShape
  | _ => true

end Sys2Proof
end

