-- ==== Sys2Proof/Safety.lean ====
section
/-! DEFINITION. What a claim takes for granted and what counts as a good state: the situations in which a command has its
effect, and the invariants of the model. -/
namespace Sys2Proof.Machine

/-! ### The device is a safe one while it answers -/

/-- A command completes: exec answers a next state. -/
def completes (c : Instr) (s : State) : Prop := ∃ t, exec c s = .next t

/-- A run of commands stops nowhere: no step of it faults or refuses. -/
def safeRun : Nat → State → Prop
  | 0, _ => True
  | n + 1, s => ∃ t, step s = .next t ∧ safeRun n t

/-! ### Engine threads -/

/-- The thread of an issue. -/
def State.tq (s : State) (q : Issue) : Thread := s.th q.thread.toNat

/-- Thread q issues instruction i now (R180, R187): the CORE clocks run, the thread is READY with i at its PC, no memory word
it reads is uncorrectable, and no register the instruction uses is pending. -/
def State.issues (s : State) (q : Issue) (i : Instr) (uses : List (BitVec 5)) : Prop :=
  s.coreRuns = true ∧ (s.tq q).state = .ready ∧
  engDecode q (s.progWord (thSlice q.thread.toNat) (s.tq q).bank (s.tq q).pc) = some i ∧ q.bad = none ∧
  ∀ r ∈ uses, (s.tq q).pend.contains r.toNat = false

/-- An instruction index lies in the thread's program (R194). -/
def State.inProgram (s : State) (q : Issue) (pc : Nat) : Prop :=
  pc % 65536 < s.progLen (thSlice q.thread.toNat) (s.tq q).bank

/-- The issue operand of an engine instruction; none for another command. -/
def issueOf (i : Instr) : Option Issue :=
  match i with
  | .engineNop q => some q
  | .add q _ _ _ => some q
  | .sub q _ _ _ => some q
  | .and q _ _ _ => some q
  | .or q _ _ _ => some q
  | .xor q _ _ _ => some q
  | .shl q _ _ _ => some q
  | .shr q _ _ _ => some q
  | .sar q _ _ _ => some q
  | .mul q _ _ _ => some q
  | .slt q _ _ _ => some q
  | .sltu q _ _ _ => some q
  | .seq q _ _ _ => some q
  | .cmov q _ _ _ => some q
  | .csum q _ _ _ => some q
  | .crc q _ _ _ => some q
  | .addi q _ _ _ => some q
  | .andi q _ _ _ => some q
  | .ori q _ _ _ => some q
  | .xori q _ _ _ => some q
  | .shli q _ _ _ => some q
  | .shri q _ _ _ => some q
  | .sari q _ _ _ => some q
  | .movi q _ _ => some q
  | .lih q _ _ _ => some q
  | .slti q _ _ _ => some q
  | .seqi q _ _ _ => some q
  | .ext q _ _ _ _ => some q
  | .ins q _ _ _ _ => some q
  | .ld8 q _ _ _ => some q
  | .ld16 q _ _ _ => some q
  | .ld32 q _ _ _ => some q
  | .ld64 q _ _ _ => some q
  | .st8 q _ _ _ => some q
  | .st16 q _ _ _ => some q
  | .st32 q _ _ _ => some q
  | .st64 q _ _ _ => some q
  | .hins q _ _ => some q
  | .hdel q _ _ => some q
  | .atadd q _ _ _ => some q
  | .dom q _ => some q
  | .cpy q _ _ => some q
  | .mirr q _ => some q
  | .cnta q _ _ => some q
  | .beq q _ _ _ => some q
  | .bne q _ _ _ => some q
  | .blt q _ _ _ => some q
  | .bge q _ _ _ => some q
  | .bltu q _ _ _ => some q
  | .bgeu q _ _ _ => some q
  | .jmp q _ => some q
  | .call q _ => some q
  | .jr q _ => some q
  | .punt q _ _ => some q
  | .lkx q _ _ _ _ _ => some q
  | .lkt q _ _ _ _ => some q
  | .wait q => some q
  | .rdc q _ _ => some q
  | .send q => some q
  | .drop q _ => some q
  | _ => none

/-- Table 8-6 for the instructions of format R that compute a register, on a register file x: the target, the sources, and
the result as arithmetic on numbers. -/
def tableR (i : Instr) (x : BitVec 5 → W64) : Option (BitVec 5 × List (BitVec 5) × W64) :=
  let u := fun r => (x r).toNat
  let z := fun r => (x r).toInt
  let nat := fun (n : Nat) => BitVec.ofNat 64 n
  match i with
  | .add _ d a b => some (d, [a, b], nat (u a + u b))
  | .sub _ d a b => some (d, [a, b], nat (u a + (2 ^ 64 - u b)))
  | .and _ d a b => some (d, [a, b], nat (u a &&& u b))
  | .or _ d a b => some (d, [a, b], nat (u a ||| u b))
  | .xor _ d a b => some (d, [a, b], nat (u a ^^^ u b))
  | .shl _ d a b => some (d, [a, b], nat (u a * 2 ^ (u b % 64)))
  | .shr _ d a b => some (d, [a, b], nat (u a / 2 ^ (u b % 64)))
  | .sar _ d a b => some (d, [a, b], BitVec.ofInt 64 (z a / 2 ^ (u b % 64)))
  | .mul _ d a b => some (d, [a, b], nat (u a * u b))
  | .slt _ d a b => some (d, [a, b], if z a < z b then 1 else 0)
  | .sltu _ d a b => some (d, [a, b], if u a < u b then 1 else 0)
  | .seq _ d a b => some (d, [a, b], if u a = u b then 1 else 0)
  | .cmov _ d a b => some (d, [a, b], if u b ≠ 0 then x a else x d)
  | .csum _ d a b =>
    let n := u a % 65536 + u b % 65536
    some (d, [a, b], nat (if 65536 ≤ n then n - 65535 else n))
  | .crc _ d a b => some (d, [a, b], nat (crc32c (u b % 2 ^ 32) (beBytes 8 (u a))))
  | _ => none

/-- Table 8-6 for the instructions of formats I and F that compute a register. -/
def tableI (i : Instr) (x : BitVec 5 → W64) : Option (BitVec 5 × List (BitVec 5) × W64) :=
  let u := fun r => (x r).toNat
  let nat := fun (n : Nat) => BitVec.ofNat 64 n
  match i with
  | .addi _ d a m => some (d, [a], BitVec.ofInt 64 ((x a).toInt + m.toInt))
  | .andi _ d a m => some (d, [a], nat (u a &&& m.toNat))
  | .ori _ d a m => some (d, [a], nat (u a ||| m.toNat))
  | .xori _ d a m => some (d, [a], nat (u a ^^^ m.toNat))
  | .shli _ d a m => some (d, [a], nat (u a * 2 ^ (m.toNat % 64)))
  | .shri _ d a m => some (d, [a], nat (u a / 2 ^ (m.toNat % 64)))
  | .sari _ d a m => some (d, [a], BitVec.ofInt 64 ((x a).toInt / 2 ^ (m.toNat % 64)))
  | .movi _ d m => some (d, [], BitVec.ofInt 64 m.toInt)
  | .slti _ d a m => some (d, [a], if (x a).toInt < m.toInt then 1 else 0)
  | .seqi _ d a m => some (d, [a], if (x a).toInt = m.toInt then 1 else 0)
  | .ext _ d a p l => some (d, [a], nat (u a / 2 ^ p.toNat % 2 ^ (l.toNat + 1)))
  | _ => none

/-- The registers an engine instruction reads or writes, the written ones first (Table 8-6, R185, R186, R187). -/
def State.usesOf (s : State) (i : Instr) : List (BitVec 5) :=
  let zero : BitVec 5 → W64 := fun _ => 0
  match tableR i zero, tableI i zero, i with
  | some (d, l, _), _, _ => d :: l
  | none, some (d, l, _), _ => d :: l
  | none, none, .lih _ d _ _ => [d]
  | none, none, .ins _ d a _ _ => [d, a]
  | none, none, .ld8 _ d a _ => [d, a]
  | none, none, .ld16 _ d a _ => [d, a]
  | none, none, .ld32 _ d a _ => [d, a]
  | none, none, .ld64 _ d a _ => [d, a]
  | none, none, .st8 _ d a _ => [d, a]
  | none, none, .st16 _ d a _ => [d, a]
  | none, none, .st32 _ d a _ => [d, a]
  | none, none, .st64 _ d a _ => [d, a]
  | none, none, .atadd _ d a b => [d, a, b]
  | none, none, .hins _ a _ => [a]
  | none, none, .hdel _ a _ => [a]
  | none, none, .dom _ a => [a]
  | none, none, .cnta _ a b => [a, b]
  | none, none, .beq _ a b _ => [a, b]
  | none, none, .bne _ a b _ => [a, b]
  | none, none, .blt _ a b _ => [a, b]
  | none, none, .bge _ a b _ => [a, b]
  | none, none, .bltu _ a b _ => [a, b]
  | none, none, .bgeu _ a b _ => [a, b]
  | none, none, .call _ _ => [31]
  | none, none, .jr _ a => [a]
  | none, none, .lkx _ d a table _ _ => d :: keyRegs a (s.xKeyRegs table.toNat)
  | none, none, .lkt _ d a _ width => d :: (d + 1) :: keyRegs a (tdKeyRegs width.toNat)
  | none, none, .rdc _ d _ => [d]
  | _, _, _ => []

/-- The state in which an instruction of thread q acts: its issue has been counted, once for an instruction that waited and
issues again (R180, R198). -/
def State.ran (s : State) (q : Issue) : State := if (s.tq q).again then s.begin else s.begin.perf 1 q.thread.toNat

/-- Thread q goes on, as t, to an instruction index. -/
def State.wentOn (s : State) (q : Issue) (t : Thread) (pc : Nat) : State :=
  s.setTh q.thread.toNat { t with pc := pc % 65536, again := false }

/-- The state after thread q wrote rd and went on to an instruction index: the performance counters saw an issue, and
nothing but the thread changed beside them (R181: w0 discards the write). -/
def State.wrote (s : State) (q : Issue) (rd : BitVec 5) (v : W64) (pc : Nat) : State :=
  (s.ran q).wentOn q ((s.tq q).setReg rd v) pc

/-! ### Host access -/

/-- A host write of the first word of a register copy takes effect at once (R9, R38, R352, R353, R377): the path is up and
reaches the register, its session has the register's level, nothing waits for the register's die, and the die's clocks run. -/
def State.writable (s : State) (p : Path) (r : Reg) (i j k : Nat) : Prop :=
  s.pathUp p = true ∧ r.writeLevel ≤ s.level p ∧ s.mustWait (r.addr i j k) = false ∧ (p = .smbus → r.ringSide = false)

/-- A host read of the first word of a register copy is answered at once. -/
def State.readable (s : State) (p : Path) (r : Reg) (i j k : Nat) : Prop :=
  s.pathUp p = true ∧ r.readLevel ≤ s.level p ∧ s.mustWait (r.addr i j k) = false ∧ (p = .smbus → r.ringSide = false)

/-- Copy (i, j, k) of a register exists. -/
def Reg.has (r : Reg) (i j k : Nat) : Prop :=
  i < max 1 r.info.n1 ∧ j < max 1 r.info.n2 ∧ k < max 1 r.info.n3

/-- The commands that are one dword written to a 32-bit register: the path, the register copy and the value (R352). -/
def hostRow (c : Instr) : Option (Path × Reg × Nat × Nat × Nat × W32) :=
  match c with
  | .timAdj path step => some (path, .TIM_ADJ, 0, 0, 0, step)
  | .coreReset path => some (path, .MGT_CTRL, 0, 0, 0, 0x08000000)
  | .mgmtReset path => some (path, .MGT_CTRL, 0, 0, 0, 0x10000000)
  | .confirm path => some (path, .MGT_CTRL, 0, 0, 0, 0x40000000)
  | .reject path => some (path, .MGT_CTRL, 0, 0, 0, 0x20000000)
  | .portEnable path port value => some (path, .LNE_PORT_CFG, (port.toNat / 16), (port.toNat % 16), 0, value)
  | .portDisable path port value => some (path, .LNE_PORT_CFG, (port.toNat / 16), (port.toNat % 16), 0, value)
  | .portRestart path port value => some (path, .LNE_PORT_CTRL, (port.toNat / 16), (port.toNat % 16), 0, value)
  | .crySaSwitch path value => some (path, .CRY_SA_SWITCH, 0, 0, 0, value)
  | .prsCommit path value => some (path, .PRS_COMMIT, 0, 0, 0, value)
  | .tableDisable path table value => some (path, .XMT_TBL_CFG, table.toNat, 0, 0, value)
  | .tdPortRetire path value => some (path, .TRN_PORT_RETIRE, 0, 0, 0, value)
  | .tplRetire path value => some (path, .TPL_RETIRE, 0, 0, 0, value)
  | .ppeCommit path value => some (path, .PPE_COMMIT, 0, 0, 0, value)
  | .ppeRetire path value => some (path, .PPE_RETIRE, 0, 0, 0, value)
  | .pcFreeze path value => some (path, .PPE_PC_GLOBAL, 0, 0, 0, value)
  | .pcSnapshot path value => some (path, .PPE_PC_GLOBAL, 0, 0, 0, value)
  | .bufBuild path value => some (path, .BUF_CTRL, 0, 0, 0, value)
  | .hbmRetire path value => some (path, .HBM_RETIRE, 0, 0, 0, value)
  | .queueFlush path value => some (path, .QUE_FLUSH, 0, 0, 0, value)
  | .galleyEnable path port value => some (path, .SHP_GALLEY_CTRL, port.toNat, 0, 0, value)
  | .galleySwitch path port value => some (path, .SHP_GALLEY_CTRL, port.toNat, 0, 0, value)
  | .fabLaneRetire path value => some (path, .FAB_LANE_RETIRE, 0, 0, 0, value)
  | .redTwinRetire path value => some (path, .RED_TWIN_RETIRE, 0, 0, 0, value)
  | .evtSrcCfgWrite path source value => some (path, .EVT_SRC_CFG, source.toNat, 0, 0, value)
  | .evtSwSet path value => some (path, .EVT_SW_SET, 0, 0, 0, value)
  | .cntSnapshot path value => some (path, .CNT_CTRL, 0, 0, 0, value)
  | .cntRelease path value => some (path, .CNT_CTRL, 0, 0, 0, value)
  | .ltrWrite path group value => some (path, .PWR_GRP_CFG, group.val, 0, 0, value)
  | .p4Request path value => some (path, .PWR_CTRL, 0, 0, 0, value)
  | .p4Release path value => some (path, .PWR_CTRL, 0, 0, 0, value)
  | .sessionOpen path admin => some (path, .HST_SESS_CMD, 0, 0, 0, (if admin then 0x18000000 else 0x10000000))
  | .sessionRespond path => some (path, .HST_SESS_CMD, 0, 0, 0, 0x20000000)
  | .sessionClose path => some (path, .HST_SESS_CMD, 0, 0, 0, 0x30000000)
  | .hstWqInval path wq index => some (path, .HST_WQ_INVAL, wq.toNat, 0, 0, index)
  | .wqDoorbell path wq value => some (path, .HST_WQ_PI, wq.toNat, 0, 0, value)
  | .wqDisable path wq value => some (path, .HST_WQ_CFG, wq.toNat, 0, 0, value)
  | .cqConsume path cq value => some (path, .HST_CQ_CI, cq.toNat, 0, 0, value)
  | .injectDoorbell path ring value => some (path, .HST_INJ_PI, ring.toNat, 0, 0, value)
  | .dmaDoorbell path channel value => some (path, .DMA_CH_PI, channel.toNat, 0, 0, value)
  | .dmaChannelDisable path channel value => some (path, .DMA_CH_CFG, channel.toNat, 0, 0, value)
  | _ => none

/-- A work queue runs an entry with this opcode now (R360, R366): queues are not halted, the queue is enabled with nothing
in execution, the entry e is at its head, and its completion queue has room. -/
def State.runsEntry (s : State) (q : BitVec 6) (op : Nat) (e : WqEntry) (rest : List WqEntry) : Prop :=
  s.mgmt = true ∧ (s.wqOf q.toNat).exec = none ∧ s.wqsRun = true ∧ s.fb F.HST_WQ_CFG_EN q.toNat = true ∧
  s.fb F.HST_WQ_STATUS_ENABLED q.toNat = true ∧ (s.wqOf q.toNat).cache = e :: rest ∧ e.op = op ∧
  s.cqRoom (s.f F.HST_WQ_CFG_CQ q.toNat) 1 = true

/-- The level a command of a queue runs at (R353, R362). -/
def State.wqLevel (s : State) (q : BitVec 6) : Nat := Nat.min (s.f F.HST_WQ_CFG_CAP q.toNat + 1) (s.level .pcie)

/-- The state in which an entry that has begun acts: it is in execution, and no longer in the cache (R360). -/
def State.begun (s : State) (q : BitVec 6) (e : WqEntry) (rest : List WqEntry) : State :=
  (if s.fb F.HST_WQ_STATUS_WAIT_CQ q.toNat then s.begin.setF F.HST_WQ_STATUS_WAIT_CQ 0 q.toNat else s.begin).setWq q.toNat
    { s.wqOf q.toNat with cache := rest, exec := some e, level := s.wqLevel q }

/-- A work queue runs an entry with this opcode at a level, and, for a command to a CORE block, that block's clocks run
(R353, R360, R395). -/
def State.cmdStarts (s : State) (q : BitVec 6) (op : Nat) (e : WqEntry) (rest : List WqEntry) (level : Nat) (core : Bool) : Prop :=
  s.runsEntry q op e rest ∧ level ≤ s.wqLevel q ∧ (core = true → s.coreRuns = true ∧ s.f F.PWR_STATUS_DEVICE ≠ 3)

/-- A command for a key of a table acts at once in the state a: no operation of the update engines stands before it, no burst
is poisoned, and HBM, where the table lies there, takes the read of the key's buckets (R135, R229, R230). -/
def State.emActs (s : State) (t key : Nat) (a : State) : Prop :=
  s.xFifo 0 = [] ∧ s.xFifo 1 = [] ∧ s.hbm.poison = [] ∧
  if s.xStore t = 1 then
    (s.hbmAsk 2 true (farSpans (s.keyWays t key))).1 = true ∧ a = (s.hbmAsk 2 true (farSpans (s.keyWays t key))).2
  else a = s

/-- An access to n entries of a target acts at once in the state a: HBM takes the request where the entries lie there (R229,
R255). -/
def State.tblAsked (s : State) (t idx n : Nat) (read : Bool) (a : State) : Prop :=
  (tblSpans t idx n = [] ∧ a = s) ∨ (tblSpans t idx n ≠ [] ∧ s.hbmAsk 2 read (tblSpans t idx n) = (true, a))

/-- Source n has an event on its way to the event controller (R35, R380). -/
def State.raised (s : State) (n : Nat) : Bool := (mget s.evt.xing n).isSome

/-! ### Scheduling -/

/-- The state in which an L0 node selects: head frames that can never pass their gate have been dropped (R271). -/
def State.gateCleared (s : State) (n0 : Nat) : State :=
  (s.que.q.map (·.1)).foldl (fun (u : State) q =>
    if !u.isVoq q && u.queueL0 q == some n0 then u.dropOversize n0 q (u.qOf q).frames.length else u) s

/-! ### Invariants -/

/-- Every sparse memory of the device is in its canonical form: keys strictly rising, and no byte of flash or of the
management region listed that reads as an unlisted one does. -/
def State.memWf (s : State) : Bool :=
  mwf s.regs && mwf s.boot.flash && mwf s.hbm.mgmt && mwf s.cnt.recs && mwf s.exm.ent && mwf s.exm.cam &&
  mwf s.trn.rows && mwf s.trn.bad && mwf s.ppe.threads && mwf s.cry.sa && mwf s.cry.cache && mwf s.buf.link && mwf s.hst.sram &&
  mwf s.que.heads && mwf s.que.members && s.boot.flash.all (fun kv => kv.2 != 0xFF) && s.hbm.mgmt.all fun kv => kv.2 != 0

end Sys2Proof.Machine
end

