-- ==== Sys2Proof/Certificates/Slice0/Obligations.lean ====
section
/-! DEFINITION. What is claimed of the model: the obligations for the provers. -/

open Sys2Proof Sys2Proof.Machine

/-! ### The step and the queue -/

/-- A step takes the command at the front of the queue and runs exec on it with the queue's rest. -/
def Obligations.StepRunsFrontCommand : Prop :=
  ∀ (c : Instr) (s : State), step { s with pending := c :: s.pending } = exec c s

/-- The state after reset: every memory in canonical form, no command waiting, every group held in reset (log entry 4), and
every register at its reset value. -/
def Obligations.ResetIsCanonical : Prop :=
  State.reset.memWf = true ∧ State.reset.pending = [] ∧ State.reset.core = false ∧ State.reset.mgmt = false ∧
  ∀ (r : Reg) (i j k : Nat), State.reset.rd r i j k = r.resetValue

/-- No command touches the queue of waiting commands: exec is the command's effect on everything but it. -/
def Obligations.ExecKeepsTheQueue : Prop :=
  ∀ (c : Instr) (s t : State), exec c s = .next t → t.pending = s.pending

/-- The fused security version never falls, whatever command the device executes (R333). -/
def Obligations.SecurityVersionNeverFalls : Prop :=
  ∀ (n : Nat) (s t : State), n ≤ s.boot.fuses.svn → step s = .next t → n ≤ t.boot.fuses.svn

/-- Decoding the encoded word of an engine instruction gives the instruction back, with every operand (R182, R183). -/
def Obligations.EngineDecodeOfEncode : Prop :=
  ∀ (i : Instr) (q : Issue) (w : W32), issueOf i = some q → engEncode i = some w → engDecode q w = some i

/-! ### Engine instructions (R175 to R191) -/

/-- The instructions of formats R, I and F that compute a register complete (Table 8-6): the target takes the table's result,
the PC goes on by one, and beside the thread only the performance counters see it. CRC's bit and byte order and that it ends
without an inversion are the model's choice (log entry 20). Completes: add, sub, and, or, xor, shl, shr, sar, mul, slt, sltu,
seq, cmov, csum, crc, addi, andi, ori, xori, shli, shri, sari, movi, slti, seqi, ext. -/
def Obligations.RegisterInstructionsResult : Prop :=
  ∀ (i : Instr) (q : Issue) (rd : BitVec 5) (uses : List (BitVec 5)) (v : W64) (s : State),
    issueOf i = some q → (tableR i fun r => (s.tq q).reg r) = some (rd, uses, v) ∨ (tableI i fun r => (s.tq q).reg r) = some (rd, uses, v) →
    s.issues q i (rd :: uses) →
    s.inProgram q ((s.tq q).pc + 1) → exec i s = .next (s.wrote q rd v ((s.tq q).pc + 1))

/-- INS and LIH complete, and put their bits in the named places of rd and no others: INS writes bits POS to POS + LENM1 that
exist, LIH the quarter that the rs1 field names (Table 8-6). Completes: ins, lih. -/
def Obligations.BitFieldInstructionsResult : Prop :=
  ∀ (q : Issue) (rd a : BitVec 5) (pos lenm1 : BitVec 6) (m : W16) (s : State), s.inProgram q ((s.tq q).pc + 1) →
    (s.issues q (.ins q rd a pos lenm1) [rd, a] →
      ∃ v, exec (.ins q rd a pos lenm1) s = .next (s.wrote q rd v ((s.tq q).pc + 1)) ∧
        ∀ n, n < 64 → v.getLsbD n = if pos.toNat ≤ n ∧ n ≤ pos.toNat + lenm1.toNat then
          ((s.tq q).reg a).getLsbD (n - pos.toNat) else ((s.tq q).reg rd).getLsbD n) ∧
    (s.issues q (.lih q rd a m) [rd] →
      ∃ v, exec (.lih q rd a m) s = .next (s.wrote q rd v ((s.tq q).pc + 1)) ∧
        ∀ n, n < 64 → v.getLsbD n = if n / 16 = a.toNat % 4 then m.getLsbD (n % 16) else ((s.tq q).reg rd).getLsbD n)

/-- Loads complete wherever the address lies in Table 8-2 and is aligned as R176 asks: rd takes the 1, 2, 4 or 8 bytes, byte a
most significant, zero-extended. Completes: ld8, ld16, ld32, ld64. -/
def Obligations.LoadsReturnBigEndianBytes : Prop :=
  ∀ (q : Issue) (rd a : BitVec 5) (off : W16) (s : State) (i : Instr) (n : Nat),
    (i, n) ∈ [(Instr.ld8 q rd a off, 1), (.ld16 q rd a off, 2), (.ld32 q rd a off, 4), (.ld64 q rd a off, 8)] →
    s.issues q i [rd, a] → s.inProgram q ((s.tq q).pc + 1) →
    ((s.tq q).addr a off + n ≤ 0x400 →
      exec i s = .next (s.wrote q rd (BitVec.ofNat 64 (beNat ((List.range n).map fun k =>
        (s.tq q).byteAt q.thread.toNat ((s.tq q).addr a off + k)))) ((s.tq q).pc + 1))) ∧
    (0x100000 ≤ (s.tq q).addr a off → (s.tq q).addr a off < 0x180000 → (s.tq q).addr a off % n = 0 →
      exec i s = .next (s.wrote q rd (BitVec.ofNat 64 ((s.clusterWord (thCluster q.thread.toNat)
        (((s.tq q).addr a off - 0x100000) / 8)).toNat / 2 ^ (8 * (8 - (s.tq q).addr a off % 8 - n)) % 2 ^ (8 * n)))
        ((s.tq q).pc + 1)))

/-- What an instruction that writes a register or memory changes, and nothing beside it. A register reads back what was
written to it, w0 reads zero whatever was written (R181), every other register and the rest of the thread stay but for the PC,
every other thread stays, and beside threads only performance counters see it. Stores complete where the area takes them
(R175, R176): in the thread's own memory and in the local words of its cluster the n bytes at the address become the low n
bytes of rd, byte a most significant, and every other byte stays. Completes: st8, st16, st32, st64. -/
def Obligations.WritesChangeTheirTargetOnly : Prop :=
  (∀ (s : State) (q : Issue) (rd r : BitVec 5) (v : W64) (pc n : Nat),
    let t := s.wrote q rd v pc
    (t.tq q).reg r = (if r = 0 then 0 else if r = rd then v else (s.tq q).reg r) ∧
    { t.tq q with regs := (s.tq q).regs } = { s.tq q with pc := pc % 65536, again := false } ∧
    (n ≠ q.thread.toNat → t.th n = s.th n) ∧
    t = { s with out := [], regs := t.regs, evt := t.evt, free := t.free
                 ppe := { s.ppe with threads := t.ppe.threads, samples := t.ppe.samples } }) ∧
  (∀ (q : Issue) (rd a : BitVec 5) (off : W16) (s : State) (i : Instr) (n : Nat),
    (i, n) ∈ [(Instr.st8 q rd a off, 1), (.st16 q rd a off, 2), (.st32 q rd a off, 4), (.st64 q rd a off, 8)] →
    s.issues q i [rd, a] → s.inProgram q ((s.tq q).pc + 1) →
    let th := q.thread.toNat
    let x := s.tq q
    let A := x.addr a off
    let new := fun b => BitVec.ofNat 8 ((x.reg rd).toNat / 2 ^ (8 * (n - 1 - (b - A))))
    (A + n ≤ 0x400 → (∀ b, A ≤ b → b < A + n → b < 0x300 ∧ (b < 0x220 ∨ 0x240 ≤ b)) →
      (∀ b, A ≤ b → b < A + n → b < 0x200 → b < x.bytes.length) → x.md.length = 16 → x.scratch.length = 128 →
      ∃ u, exec i s = .next ((s.ran q).wentOn q u (x.pc + 1)) ∧
        u = { x with bytes := u.bytes, md := u.md, scratch := u.scratch } ∧
        u.bytes.length = x.bytes.length ∧ u.bytes.drop 512 = x.bytes.drop 512 ∧ u.md.length = 16 ∧ u.scratch.length = 128 ∧
        ∀ b, b < 0x400 → u.byteAt th b = if A ≤ b ∧ b < A + n then new b else x.byteAt th b) ∧
    (0x170000 ≤ A → A < 0x180000 → A % n = 0 →
      ∃ t, exec i s = .next t ∧ t.th th = { x with pc := (x.pc + 1) % 65536, again := false } ∧
        (∀ m, m ≠ th → t.th m = s.th m) ∧ t.ppe.rob = s.ppe.rob ∧ t.ppe.crep = s.ppe.crep ∧ t.hbm = s.hbm ∧ t.exm = s.exm ∧
        ∀ c w k, w < 65536 → k < 8 → rowByte (t.clusterWord c w) k =
          if c = thCluster th ∧ A ≤ 0x100000 + 8 * w + k ∧ 0x100000 + 8 * w + k < A + n then new (0x100000 + 8 * w + k)
          else rowByte (s.clusterWord c w) k))

/-- What a store puts in the scratch area a load of the same width at the same address reads back, cut to the width (R175,
R176). -/
def Obligations.ScratchStoreThenLoad : Prop :=
  ∀ (s : State) (th : Nat) (t : Thread) (a n : Nat) (v : W64), n ∈ [1, 2, 4, 8] → 0x280 ≤ a → a + n ≤ 0x300 →
    t.scratch.length = 128 →
    ∃ u, s.store th t a n v = .ok (u, s) ∧ s.load th u a n = .ok (BitVec.ofNat 64 (v.toNat % 2 ^ (8 * n))) ∧
      ∀ b, b < 0x400 → (b < a ∨ a + n ≤ b) → u.byteAt th b = t.byteAt th b

/-- An access that breaks a rule of Tables 8-2 and 8-7 stops the thread and drops its packet (R175, R176, R194): a store to a
read-only area faults with code 3, also a misaligned one to replicated memory (that order is the model's choice, log entry
75), a store to window bytes beyond the frame with 7, a misaligned access to cluster memory with 4, an access anywhere else
with 2. The thread is ENDING with nothing pending, its reorder entry has ended, FAULTS counts, STATUS.FAULT shows,
PPE_FAULT_LOG names the code, the thread and the PC, the event is raised, and one frame is dropped under ENG_FAULT; every
other thread stays. -/
def Obligations.BadAccessFaults : Prop :=
  ∀ (q : Issue) (rd a : BitVec 5) (off : W16) (s : State) (i : Instr) (n : Nat) (store : Bool) (code : Nat),
    (i, n, store) ∈ [(Instr.ld8 q rd a off, 1, false), (.ld16 q rd a off, 2, false), (.ld32 q rd a off, 4, false),
      (.ld64 q rd a off, 8, false), (.st8 q rd a off, 1, true), (.st16 q rd a off, 2, true), (.st32 q rd a off, 4, true),
      (.st64 q rd a off, 8, true)] →
    s.issues q i [rd, a] →
    let th := q.thread.toNat
    let x := s.tq q
    let A := x.addr a off
    let ro := fun b => (0x220 ≤ b ∧ b < 0x240) ∨ 0x300 ≤ b
    (store = true ∧ A + n ≤ 0x400 ∧ (∃ b, A ≤ b ∧ b < A + n ∧ ro b) ∧ code = 3) ∨
    (store = true ∧ A + n ≤ 0x400 ∧ (∀ b, A ≤ b → b < A + n → ¬ ro b) ∧
      (∃ b, A ≤ b ∧ b < A + n ∧ b < 0x200 ∧ x.bytes.length ≤ b) ∧ code = 7) ∨
    (store = true ∧ 0x100000 ≤ A ∧ A < 0x170000 ∧ code = 3) ∨
    ((store = true → 0x170000 ≤ A) ∧ 0x100000 ≤ A ∧ A < 0x180000 ∧ A % n ≠ 0 ∧ code = 4) ∨
    (0x400 < A + n ∧ (A < 0x100000 ∨ 0x180000 ≤ A) ∧ code = 2) →
    ∃ t, exec i s = .next t ∧ t = (s.ran q).engFault th x code ∧
      t.th th = { x with state := .ending, pend := [], outst := 0 } ∧ (∀ m, m ≠ th → t.th m = s.th m) ∧
      t.robOf (thSlice th) = ((s.robOf (thSlice th)).map fun e => if e.id = x.rob then { e with ended := true } else e) ∧
      t.rd .PPE_FAULT_LOG 0 0 0 = BitVec.ofNat 64 (code * 2 ^ 59 + th * 2 ^ 44 + x.pc * 2 ^ 16) ∧
      t.f F.PPE_SLICE_STAT_FAULTS (thSlice th) =
        Nat.min F.PPE_SLICE_STAT_FAULTS.max (s.f F.PPE_SLICE_STAT_FAULTS (thSlice th) + 1) ∧
      t.fb F.PPE_STATUS_FAULT = true ∧ t.raised (360 + thSlice th) = true ∧
      t.rd .CNT_DROP_TOTAL 0 0 0 = s.rd .CNT_DROP_TOTAL 0 0 0 + 1 ∧
      ⟨statKey spReason 0x051, [1, x.bytes.length + 4], s.pica.num⟩ ∈ t.cnt.posts ∧ t.ppe.cloc = s.ppe.cloc

/-- The branches, the jumps and NOP complete (R181, R183, Table 8-6): a branch taken moves the PC by its signed offset and
else goes on by one; JMP adds its signed offset, CALL too with the return index in w31, JR takes the low 16 bits of its
register. Completes: engineNop, beq, bne, blt, bge, bltu, bgeu, jmp, call, jr. -/
def Obligations.BranchesAndJumpsMoveThePC : Prop :=
  ∀ (q : Issue) (a b : BitVec 5) (off : W16) (off26 : BitVec 26) (s : State) (i : Instr),
    let x := (s.tq q).reg a
    let y := (s.tq q).reg b
    (∀ taken, (i, taken) ∈ [(Instr.beq q a b off, decide (x = y)), (.bne q a b off, decide (x ≠ y)),
        (.blt q a b off, decide (x.toInt < y.toInt)), (.bge q a b off, decide (y.toInt ≤ x.toInt)),
        (.bltu q a b off, decide (x.toNat < y.toNat)), (.bgeu q a b off, decide (y.toNat ≤ x.toNat))] →
      s.issues q i [a, b] →
      s.inProgram q (if taken then (s.tq q).pc + off.toNat else (s.tq q).pc + 1) →
      ∃ t, exec i s = .next t ∧ t.th q.thread.toNat = { s.tq q with
          pc := (if taken then (s.tq q).pc + off.toNat else (s.tq q).pc + 1) % 65536, again := false } ∧
        (∀ n, n ≠ q.thread.toNat → t.th n = s.th n) ∧ t.ppe.rob = s.ppe.rob ∧ t.hbm = s.hbm) ∧
    (∀ uses t1 pc, (i, uses, t1, pc) ∈ [(Instr.engineNop q, [], s.tq q, (s.tq q).pc + 1),
        (.jmp q off26, [], s.tq q, (s.tq q).pc + off26.toNat),
        (.call q off26, [31], (s.tq q).setReg 31 (BitVec.ofNat 64 (((s.tq q).pc + 1) % 65536)), (s.tq q).pc + off26.toNat),
        (.jr q a, [a], s.tq q, ((s.tq q).reg a).toNat)] →
      s.issues q i uses → s.inProgram q pc →
      ∃ t, exec i s = .next t ∧ t.th q.thread.toNat = { t1 with pc := pc % 65536, again := false } ∧
        (∀ n, n ≠ q.thread.toNat → t.th n = s.th n) ∧ t.ppe.rob = s.ppe.rob ∧ t.hbm = s.hbm)

/-- ATADD, RDC, WAIT, DOM and CNTA complete (R184, R191, R201, Table 8-6). ATADD takes the old local word into rd and adds rs2
to it, and no other word of cluster memory changes; RDC reads the pica, the deadline and the thread number, and a SEL above
0xB reads 0; WAIT goes on, with no lookup outstanding at once and else asleep until none is; DOM declares the order domain
once; CNTA posts one packet and rs2[15:0] bytes to a flow counter. Completes: atadd, rdc, wait, dom, cnta. -/
def Obligations.SpecialInstructionsResult : Prop :=
  ∀ (q : Issue) (rd a b : BitVec 5) (sel : Byte) (s : State), s.inProgram q ((s.tq q).pc + 1) →
    let n := q.thread.toNat
    let x := s.tq q
    (s.issues q (.atadd q rd a b) [rd, a, b] → 0x170000 ≤ (x.reg a).toNat → (x.reg a).toNat < 0x180000 →
      (x.reg a).toNat % 8 = 0 →
      ∃ t, exec (.atadd q rd a b) s = .next t ∧
        t.th n = { x.setReg rd (s.clusterWord (thCluster n) (((x.reg a).toNat - 0x100000) / 8)) with
          pc := (x.pc + 1) % 65536, again := false } ∧
        ∀ c w, w < 65536 → t.clusterWord c w = if 57344 ≤ w ∧ c = thCluster n ∧ w = ((x.reg a).toNat - 0x100000) / 8 then
          s.clusterWord c w + x.reg b else s.clusterWord c w) ∧
    (s.issues q (.rdc q rd sel) [rd] →
      ∃ v, exec (.rdc q rd sel) s = .next (s.wrote q rd v (x.pc + 1)) ∧
        (sel = 0 → v = BitVec.ofNat 64 s.pica.num) ∧ (sel = 1 → v = BitVec.ofNat 64 x.deadline) ∧
        (sel = 2 → v = BitVec.ofNat 64 n) ∧ (11 < sel.toNat → v = 0)) ∧
    (s.issues q (.wait q) [] →
      exec (.wait q) s =
        .next ((s.ran q).wentOn q { x with state := if x.outst = 0 then .ready else .sleeping .all } (x.pc + 1))) ∧
    (s.issues q (.dom q a) [a] →
      ∃ t, exec (.dom q a) s = .next t ∧ t.th n = { x with pc := (x.pc + 1) % 65536, again := false } ∧
        t.robOf (thSlice n) = (s.robOf (thSlice n)).map fun e =>
          if e.id = x.rob then { e with domain := some (e.domain.getD ((x.reg a).toNat % 65536)) } else e) ∧
    (s.issues q (.cnta q a b) [a, b] → s.bankQueued ((x.reg a).toNat % 2 ^ 24) < bankRoom →
      ∃ t, exec (.cnta q a b) s = .next t ∧ t.th n = { x with pc := (x.pc + 1) % 65536, again := false } ∧
        t.cnt.posts = s.cnt.posts ++ [⟨(x.reg a).toNat % 2 ^ 24, [1, (x.reg b).toNat % 65536], s.pica.num⟩]) ∧
    (s.issues q (.cnta q a b) [a, b] → bankRoom ≤ s.bankQueued ((x.reg a).toNat % 2 ^ 24) →
      exec (.cnta q a b) s = .next ((s.ran q).setTh n { x with again := true }))

/-- An issued lookup leaves for its store or search port and the target registers become pending: LKX appends its request to
the store of its table and LKT to a search port of the slice (R155, R185 to R187). A thread whose instruction reads or writes
a pending register, whichever instruction it is, sleeps until it lands, and a thread that is not READY issues nothing. HINS
inserts imm16 zero bytes at the window offset and HDEL removes them, each counting one of 8 edits; a break of a rule of R188
faults EDIT instead. Completes: lkx, lkt, hins, hdel. -/
def Obligations.LookupsAndEdits : Prop :=
  (∀ (q : Issue) (rd a : BitVec 5) (s : State), s.inProgram q ((s.tq q).pc + 1) → (s.tq q).outst < 8 →
    let n := q.thread.toNat
    let x := s.tq q
    (∀ (table : BitVec 4) (touch learn : Bool),
      s.issues q (.lkx q rd a table touch learn) (rd :: keyRegs a (s.xKeyRegs table.toNat)) →
      a.toNat + s.xKeyRegs table.toNat ≤ 32 → rd ≠ 0 →
      ∃ t, exec (.lkx q rd a table touch learn) s = .next t ∧
        t.th n = { x with pend := x.pend ++ [rd.toNat], outst := x.outst + 1, pc := (x.pc + 1) % 65536, again := false } ∧
        mgetD t.exm.reqs (s.xStore table.toNat) [] = mgetD s.exm.reqs (s.xStore table.toNat) [] ++
          [⟨n, x.gen, rd.toNat, table.toNat, x.keyOf a (s.xKeyRegs table.toNat), touch, learn, (x.reg rd).toNat % 2 ^ 32,
            s.xEn table.toNat, s.fb F.XMT_STATUS_CLEAR_DONE⟩]) ∧
    (∀ (table : BitVec 6) (width : BitVec 2) (k : Nat),
      s.issues q (.lkt q rd a table width) (rd :: (rd + 1) :: keyRegs a (tdKeyRegs width.toNat)) →
      a.toNat + tdKeyRegs width.toNat ≤ 32 → rd ≠ 0 → rd ≠ 31 → s.tdLost (thSlice n) = false →
      s.portFor (thSlice n) = some k →
      ∃ t, exec (.lkt q rd a table width) s = .next t ∧
        t.th n = { x with pend := x.pend ++ [rd.toNat, rd.toNat + 1], outst := x.outst + 1, pc := (x.pc + 1) % 65536,
                          again := false } ∧
        t.portQ k = s.portQ k ++ [⟨n, x.gen, .eng rd.toNat, table.toNat, width.toNat,
          x.keyOf a (tdKeyRegs width.toNat) % 2 ^ (match width.toNat with | 1 => 160 | 2 => 320 | _ => 80), false⟩])) ∧
  (∀ (i : Instr) (q : Issue) (s : State), issueOf i = some q → s.coreRuns = true →
    let x := s.tq q
    (∀ r, x.state = .ready → q.bad = none →
      engDecode q (s.progWord (thSlice q.thread.toNat) x.bank x.pc) = some i →
      (s.usesOf i).find? (fun r => x.pend.contains r.toNat) = some r →
      exec i s = .next (s.begin.setTh q.thread.toNat { x with state := .sleeping (.reg r.toNat) })) ∧
    (x.state ≠ .ready → exec i s = .next s.begin)) ∧
  (∀ (q : Issue) (a : BitVec 5) (m : W16) (s : State), s.inProgram q ((s.tq q).pc + 1) →
    let n := q.thread.toNat
    let x := s.tq q
    let o := (x.reg a).toNat
    let k := m.toNat
    let len := x.bytes.length
    (s.issues q (.hins q a m) [a] →
      exec (.hins q a m) s = .next
        (if 1 ≤ k ∧ k ≤ 128 ∧ o ≤ len ∧ o ≤ 512 ∧ x.edits < 8 ∧ len + k ≤ x.admLen + 128
        then (s.ran q).setTh n { x with bytes := x.bytes.take o ++ List.replicate k 0 ++ x.bytes.drop o, edits := x.edits + 1,
                                        pc := (x.pc + 1) % 65536, again := false }
        else (s.ran q).engFault n x 7)) ∧
    (s.issues q (.hdel q a m) [a] →
      exec (.hdel q a m) s = .next
        (if 1 ≤ k ∧ k ≤ 256 ∧ o + k ≤ len ∧ o + k ≤ 512 ∧ x.edits < 8 ∧ len - k ≤ x.admLen + 128
        then (s.ran q).setTh n { x with bytes := x.bytes.take o ++ x.bytes.drop (o + k), edits := x.edits + 1,
                                        skip := x.skipAfter (len - k), pc := (x.pc + 1) % 65536, again := false }
        else (s.ran q).engFault n x 7)))

/-- SEND, PUNT and DROP end the packet: the thread is ENDING, its reorder entry has ended, with the frame sent, the punt
output, or neither (R189); a DROP counts one frame with its reason, ENG_DROP where the reason is not available (R384).
Completes: send, punt, drop. -/
def Obligations.TerminalInstructionsEndThePacket : Prop :=
  ∀ (q : Issue) (ring : BitVec 4) (reason : BitVec 10) (s : State) (i : Instr), i ∈ [Instr.send q, .punt q ring reason, .drop q reason] →
    s.issues q i [] →
    let n := q.thread.toNat
    let x := s.tq q
    ∃ t, exec i s = .next t ∧ (t.th n).state = .ending ∧ (t.th n).pend = [] ∧
      t.robOf (thSlice n) = ((s.robOf (thSlice n)).map fun e => if e.id = x.rob then { (match i with
          | .send _ => { e with sent := some x.sentPkt, domain := some (e.domain.getD ((x.md.getD 0 0).toNat % 65536)) }
          | .punt _ _ _ => { e with outs := e.outs ++ [x.output (.punt ring.toNat
              (if s.userCode reason.toNat then reason.toNat else 0x054)) x.bytes x.skip] }
          | _ => e) with ended := true } else e) ∧
      (i = .drop q reason → t.rd .CNT_DROP_TOTAL 0 0 0 = s.rd .CNT_DROP_TOTAL 0 0 0 + 1 ∧
        ⟨statKey spReason (if s.userCode reason.toNat then reason.toNat else 0x053), [1, x.bytes.length + 4], s.pica.num⟩ ∈
          t.cnt.posts)

/-- CPY and MIRR go on with the program and leave one copy beside it, which needs no order: to a punt ring, and through a
mirror session whose sampling takes it; each program makes at most two, and a third only counts in COPY_CAP (R122, R190).
Completes: cpy, mirr. -/
def Obligations.CopiesLeaveBesideTheFrame : Prop :=
  ∀ (q : Issue) (ring : BitVec 4) (reason : BitVec 10) (m : BitVec 6) (s : State), s.inProgram q ((s.tq q).pc + 1) →
    let n := q.thread.toNat
    let x := s.tq q
    (s.issues q (.cpy q ring reason) [] → x.copies < 2 →
      ∃ t, exec (.cpy q ring reason) s = .next t ∧ t.th n = { x with
          copies := x.copies + 1, pc := (x.pc + 1) % 65536, again := false } ∧
        t.robOf (thSlice n) = (s.robOf (thSlice n)).map fun e => if e.id = x.rob then
          { e with outs := e.outs ++ [x.copyOut (.punt ring.toNat (if s.userCode reason.toNat then reason.toNat else 0x054))
              x.bytes x.skip] } else e) ∧
    (s.issues q (.mirr q m) [] → x.copies < 2 → s.f F.CLS_MIR_SAMPLE_N m.toNat < 2 → s.fb F.CLS_MIR_CFG_EN m.toNat = true →
      ∃ t, exec (.mirr q m) s = .next t ∧ t.th n = { x with
          copies := x.copies + 1, pc := (x.pc + 1) % 65536, again := false } ∧
        t.robOf (thSlice n) = (s.robOf (thSlice n)).map fun e => if e.id = x.rob then
          { e with outs := e.outs ++ [s.mirrorCopy x m.toNat x.bytes x.skip] } else e) ∧
    (s.issues q (.cpy q ring reason) [] → 2 ≤ x.copies →
      ∃ t, exec (.cpy q ring reason) s = .next t ∧ t.th n = { x with pc := (x.pc + 1) % 65536, again := false } ∧
        t.f F.PPE_SLICE_STAT_COPY_CAP (thSlice n) =
          Nat.min F.PPE_SLICE_STAT_COPY_CAP.max (s.f F.PPE_SLICE_STAT_COPY_CAP (thSlice n) + 1))

/-! ### From the ingress FIFO to the buffer store (chapters 5, 6, 7, 8, 9) -/

/-- A head is admitted to the thread that R172 chooses, with its parse and its deadline at its admission pica plus the slice's
D (R172, R193); once its searches have landed one action word settles it (R119, R120); then the thread is loaded and starts at
its entry with cleared scratch memory (R174, R177). Completes: headAdmit, classify, threadLoaded. -/
def Obligations.HeadsBecomeReadyThreads : Prop :=
  ∀ (s : State), s.coreRuns = true →
    (∀ (sl : Fin 8) (f : RxFrame) (rest : List RxFrame) (n : Nat), s.fifoOf sl.val = f :: rest → s.pickThread sl.val = some n →
      mgetD s.prs.heads sl.val 0 < 32 → (s.robOf sl.val).length < 2048 →
      mgetD s.prs.visits sl.val 0 + (s.parse sl.val (s.prsBank sl.val) (f.port % 16) f.bytes).visits ≤ 256 →
      ∃ t, exec (.headAdmit sl) s = .next t ∧ t.fifoOf sl.val = rest ∧ (t.th n).state = .loading ∧ (t.th n).bytes = f.bytes ∧
        (t.th n).frame = some f ∧ (t.th n).adm = s.pica.num ∧
        (t.th n).deadline = s.pica.num + Nat.max 8 (s.f F.PPE_SLICE_CFG_DEADLINE sl.val) ∧
        (∃ v, (t.th n).parse = let o := s.parse sl.val (s.prsBank sl.val) (f.port % 16) f.bytes
          if o.fail = 0 then o else { o with payload := v }) ∧
        (t.robOf sl.val).length = (s.robOf sl.val).length + 1) ∧
    (∀ (th : BitVec 12), let x := s.th th.toNat
      x.state = .loading → x.settled = false → x.s0 ≠ .wait → x.s1 ≠ .wait →
      (∀ w d, s.resolve (thSlice th.toNat) x = .word w d → actOf w = 1 →
        exec (.classify th) s = .next (s.begin.setTh th.toNat { x with word := w, settled := true })) ∧
      (∀ c, s.resolve (thSlice th.toNat) x = .drop c → exec (.classify th) s = .next (s.begin.endDrop th.toNat x c))) ∧
    (∀ (th : BitVec 12), let x := s.th th.toNat
      let pc := (mgetD s.ppe.pent (progBank (thSlice th.toNat) x.bank * 16 + x.entry) (0, 0)).1
      x.state = .loading → x.settled = true → pc % 65536 < s.progLen (thSlice th.toNat) x.bank →
      ∃ t, exec (.threadLoaded th) s = .next t ∧ t.th th.toNat = { x with
        state := .ready, md := x.startRows, scratch := List.replicate 128 0, ing := x.record (Config.freeWord s.free),
        pc := pc % 65536, again := false })

/-- A response lands in its thread while its packet runs and is else discarded (R187); a packet that has not ended at its
deadline drops under ENG_OVERRUN (R193); an ended thread becomes free (R173). Completes: lookupResponse, deadlineExpiry,
threadFree. -/
def Obligations.ResponsesDeadlinesAndEnds : Prop :=
  ∀ (th : BitVec 12) (s : State), s.coreRuns = true →
    let n := th.toNat
    let x := s.th n
    (∀ r, s.ppe.resp.find? (fun r => r.thread == n) = some r →
      ∃ t, exec (.lookupResponse th) s = .next t ∧ t.ppe.resp = s.ppe.resp.erase r ∧
        t.th n = if x.gen = r.gen ∧ x.state ≠ .free ∧ x.state ≠ .ending then x.land r else x) ∧
    (x.state ≠ .free → x.state ≠ .ending → x.deadline ≤ s.pica.num →
      ∃ t, exec (.deadlineExpiry th) s = .next t ∧ (t.th n).state = .ending ∧
        t.rd .CNT_DROP_TOTAL 0 0 0 = s.rd .CNT_DROP_TOTAL 0 0 0 + 1 ∧
        ⟨statKey spReason 0x050, [1, x.bytes.length + 4], s.pica.num⟩ ∈ t.cnt.posts ∧ t.raised (352 + thSlice n) = true) ∧
    (x.state = .ending →
      ∃ t, exec (.threadFree th) s = .next t ∧ t.th n = { gen := x.gen } ∧ (∀ m, m ≠ n → t.th m = s.th m))

/-- A graph commit and a program commit that pass their checks swap the banks of every named slice at once; a failing one
swaps none and names the code of the lowest failing slice (R115, R196). A retired engine has no packet left, and its bit shows
(R195). A counter that its event or the pica's cycles can carry over 2^48 wraps, shows its OVF bit and raises its cluster's
interrupt (R199; how far a counter of cycles gets within a pica is the model's free choice, log entry 21). Completes:
prsCommitEnd, ppeCommitSwap, ppeRetire, perfCounterWrap. -/
def Obligations.CommitsSwapBanks : Prop :=
  ∀ (s : State), s.coreRuns = true →
    (∀ mask, s.f F.PRS_BANK_STATUS_PENDING = mask → mask ≠ 0 →
      (∀ sl, sl < 8 → bit mask sl = true → s.prsCheck sl (1 - s.prsBank sl) = 0) →
      ∃ t, exec .prsCommitEnd s = .next t ∧ t.f F.PRS_BANK_STATUS_PENDING = 0 ∧
        t.f F.PRS_BANK_STATUS_ACTIVE = (s.f F.PRS_BANK_STATUS_ACTIVE ^^^ mask)) ∧
    (∀ mask sl, s.f F.PRS_BANK_STATUS_PENDING = mask → sl < 8 → bit mask sl = true →
      s.prsCheck sl (1 - s.prsBank sl) ≠ 0 → (∀ k, k < sl → bit mask k = true → s.prsCheck k (1 - s.prsBank k) = 0) →
      ∃ t, exec .prsCommitEnd s = .next t ∧ t.f F.PRS_BANK_STATUS_PENDING = 0 ∧
        t.f F.PRS_BANK_STATUS_ACTIVE = s.f F.PRS_BANK_STATUS_ACTIVE ∧ t.f F.PRS_BANK_STATUS_CHECK_SLICE = sl ∧
        t.fb F.PRS_BANK_STATUS_CFG_ERR = true) ∧
    (s.ppe.checking ≠ 0 → s.ppe.checking < 256 → (∀ sl, sl < 8 → bit s.ppe.checking sl = true → s.ppeCheck sl = 0) →
      ∃ t, exec .ppeCommitSwap s = .next t ∧ t.ppe.checking = 0 ∧
        t.f F.PPE_BANK_STATUS_ACTIVE = (s.f F.PPE_BANK_STATUS_ACTIVE ^^^ s.ppe.checking)) ∧
    (∀ p (e : BitVec 9), s.writable p .PPE_RETIRE 0 0 0 →
      bit (s.f F.PPE_SLICE_RETIRED_ENGINES (e.toNat / 64)) (e.toNat % 64) = false →
      ∃ t, exec (.ppeRetire p (BitVec.ofNat 32 (2 ^ 31 + e.toNat))) s = .next t ∧
        bit (t.f F.PPE_SLICE_RETIRED_ENGINES (e.toNat / 64)) (e.toNat % 64) = true ∧ t.raised 368 = true ∧
        ∀ i, i < 8 → (t.th (e.toNat * 8 + i)).state = .free ∨ (t.th (e.toNat * 8 + i)).state = .ending) ∧
    (∀ (k : BitVec 5) (n : Fin 9) (e : BitVec 4) (th : BitVec 3) (pc : W16), s.pcCanWrap k.toNat n.val = true →
      (n.val ≠ 8 → (s.pcEngines k.toNat n.val).contains e.toNat = true) →
      ∃ t, exec (.perfCounterWrap k n e th pc) s = .next t ∧ t.raised (384 + k.toNat) = true ∧
        if n.val = 8 then t.f F.PPE_PC_CYCLE_CYCLES (k.toNat / 4) (k.toNat % 4) =
              s.f F.PPE_PC_CYCLE_CYCLES (k.toNat / 4) (k.toNat % 4) + 32 - 2 ^ 48 ∧
            t.fb F.PPE_PC_CYCLE_OVF (k.toNat / 4) (k.toNat % 4) = true
        else t.f F.PPE_PC_VAL_VALUE (k.toNat / 4) (k.toNat % 4) n.val = 0 ∧
            t.fb F.PPE_PC_VAL_OVF (k.toNat / 4) (k.toNat % 4) n.val = true)

/-- Released packets keep their order domain's order (R191, R192). A pass releases at most what is left of 32 a pica. A sent
packet stays while an older entry stays that has not ended or still holds a frame, and that has declared no domain or the
packet's own; an entry that has not ended stays. A sent packet that nothing older holds up leaves when QD accepts its group:
its frame and its copies join the next vote window as one descriptor group, and its data the slice channel. Completes:
robRelease. -/
def Obligations.ReleaseKeepsDomainOrder : Prop :=
  ∀ (sl : Fin 8) (s : State), s.coreRuns = true → ((s.robOf sl.val).map (·.id)).Nodup →
    let used := mgetD s.ppe.relUsed sl.val 0
    let r := s.begin.robPass sl.val (32 - used) [] (s.robOf sl.val)
    (∃ t, exec (.robRelease sl) s = .next t ∧ t.robOf sl.val = robFree r.2.1 ∧ r.2.2 ≤ 32 - used ∧
      mgetD t.ppe.relUsed sl.val 0 = 32 - r.2.2) ∧
    (∀ a e b, s.robOf sl.val = a ++ e :: b → e.ended = false → e ∈ r.2.1) ∧
    (∀ a e b f, s.robOf sl.val = a ++ e :: b → f ∈ b → f.sent.isSome = true → (e.ended = false ∨ e.sent.isSome = true) →
      (e.domain = none ∨ e.domain = f.domain) → e ∈ r.2.1 → f ∈ r.2.1) ∧
    (∀ a e b p, s.robOf sl.val = a ++ e :: b → e.ended = true → e.sent = some p → p.cbEn = false → used < 32 →
      (∀ x ∈ a, if x.ended then x.sent = none ∧ x.outs = [] else x.domain.isSome = true ∧ x.domain ≠ e.domain) →
      s.fb F.BUF_STATUS_CFG_DONE = true → s.buf.fq.hist.length < 64 →
      mgetD s.buf.chanBytes sl.val 0 + groupBytes e.len (p :: e.outs) ≤ 262144 →
      let tag := mgetD s.buf.tagOut sl.val 0
      let u : State := { s.begin with buf := { s.buf with
        flight := mset s.buf.flight s.buf.nextGroup ⟨sl.val, tag, e.len, p :: e.outs⟩, nextGroup := s.buf.nextGroup + 1
        tagOut := mset s.buf.tagOut sl.val ((tag + 1) % 4096)
        chan := mset s.buf.chan sl.val (mgetD s.buf.chan sl.val [] ++ [⟨tag, groupBytes e.len (p :: e.outs)⟩])
        chanBytes := mset s.buf.chanBytes sl.val (mgetD s.buf.chanBytes sl.val 0 + groupBytes e.len (p :: e.outs))
        fq := { s.buf.fq with queue := s.buf.fq.queue ++
          (List.range (e.outs.length + 1)).map fun i => s.buf.nextGroup * 4 + i } } }
      r = u.robPass sl.val (31 - used) a b ∧
      (b = [] → ∃ t, exec (.robRelease sl) s = .next t ∧ t.robOf sl.val = robFree a ∧
        mgetD t.ppe.relUsed sl.val 0 = used + 1 ∧ t.buf = u.buf))

/-- Descriptor groups and their data meet by tag: the second to arrive stores the group's outputs, the first waits, and what
has waited 64 picas is dropped under BUF_PAIR_LOST, raising PAIR_LOST (R213). Completes: descriptorGroupArrival,
frameDataArrival, pairTimeout. -/
def Obligations.GroupsPairWithTheirData : Prop :=
  ∀ (sl : Fin 8) (s : State), s.coreRuns = true →
    (∀ g rest, mgetD s.buf.desc sl.val [] = g :: rest → mgetD s.buf.tagIn sl.val 0 = g.tag → mgetD s.buf.wait sl.val [] = [] →
      ∃ t, exec (.descriptorGroupArrival sl) s = .next t ∧ mgetD t.buf.desc sl.val [] = rest ∧
        mgetD t.buf.wait sl.val [] = [⟨g.tag, some g, 0, s.pica.num⟩] ∧ mgetD t.buf.tagIn sl.val 0 = (g.tag + 1) % 4096) ∧
    (∀ x rest, mgetD s.buf.chan sl.val [] = x :: rest → mgetD s.buf.tagData sl.val 0 = x.tag → mgetD s.buf.wait sl.val [] = [] →
      ∃ t, exec (.frameDataArrival sl) s = .next t ∧ mgetD t.buf.chan sl.val [] = rest ∧
        mgetD t.buf.wait sl.val [] = [⟨x.tag, none, x.bytes, s.pica.num⟩] ∧ mgetD t.buf.tagData sl.val 0 = (x.tag + 1) % 4096) ∧
    (∀ g rest w, mgetD s.buf.desc sl.val [] = g :: rest → mgetD s.buf.tagIn sl.val 0 = g.tag → mgetD s.buf.wait sl.val [] = [w] →
      w.tag = g.tag → w.group = none →
      exec (.descriptorGroupArrival sl) s = .next ((State.chanTake { s.begin with buf := { s.buf with
        desc := msetD s.buf.desc sl.val [] rest, tagIn := mset s.buf.tagIn sl.val ((g.tag + 1) % 4096)
        wait := msetD s.buf.wait sl.val [] [] } } sl.val w.bytes).storeGroup g)) ∧
    (∀ x rest w g, mgetD s.buf.chan sl.val [] = x :: rest → mgetD s.buf.tagData sl.val 0 = x.tag → mgetD s.buf.wait sl.val [] = [w] →
      w.tag = x.tag → w.group = some g →
      exec (.frameDataArrival sl) s = .next ((State.chanTake { s.begin with buf := { s.buf with
        chan := msetD s.buf.chan sl.val [] rest, tagData := mset s.buf.tagData sl.val ((x.tag + 1) % 4096)
        wait := msetD s.buf.wait sl.val [] [] } } sl.val x.bytes).storeGroup g)) ∧
    (∀ w, mgetD s.buf.wait sl.val [] = [w] → w.group = none → w.since + 64 ≤ s.pica.num →
      ∃ t, exec (.pairTimeout sl) s = .next t ∧ mgetD t.buf.wait sl.val [] = [] ∧ t.raised 448 = true ∧
        t.rd .CNT_DROP_TOTAL 0 0 0 = s.rd .CNT_DROP_TOTAL 0 0 0 + 1 ∧
        mgetD t.buf.chanBytes sl.val 0 = mgetD s.buf.chanBytes sl.val 0 - w.bytes)

/-! ### Time (chapter 2) -/

/-- A pica boundary advances the pica number and the copies of QD and TD by one, runs the time base for the 8 nclk cycles of
16 ns and opens the shares of a new pica; while the CORE group does not run the time base runs on alone (R29, R30, R43). A
mark that agrees with its die's copy changes nothing; one that does not loads its low byte, and PICA_SLIP is raised (R31). The
model's choices here: how the clocks' edges and the delay of a mark are told (log entry 5), that empty windows beyond 64 are
listed (24), and the upper bits of a loaded copy, of which the statement says nothing (82). Completes: picaBoundary,
picaMark. -/
def Obligations.PicasAdvance : Prop :=
  ∀ (s : State),
    (s.mgmt = true → s.coreRuns = true →
      ∃ t, exec .picaBoundary s = .next t ∧ t.pica.num = s.pica.num + 1 ∧ t.tb = s.tb.tick 8 ∧ t.prs.heads = [] ∧
        t.ppe.relUsed = [] ∧ t.buf.wrote = 0 ∧ t.buf.read = 0 ∧ t.pica.qd = s.pica.qd + 1 ∧ t.pica.td = s.pica.td + 1 ∧
        (t.buf.fq.hist.length = s.buf.fq.hist.length + 1 ∨ (255 ≤ s.buf.fq.hist.length ∧ t.buf.fq.hist = s.buf.fq.hist))) ∧
    (s.mgmt = true → s.coreRuns = false → exec .picaBoundary s = .next { s.begin with tb := s.tb.tick 8 }) ∧
    (∀ low : Byte, s.coreRuns = true →
      (s.pica.qd % 256 = low.toNat → exec (.picaMark .qd low) s = .next s.begin) ∧
      (s.pica.td % 256 = low.toNat → exec (.picaMark .td low) s = .next s.begin) ∧
      (s.pica.qd % 256 ≠ low.toNat → (recentSlips s.pica.slipsQd s.pica.num).length ≤ 4 →
        ∃ t, exec (.picaMark .qd low) s = .next t ∧ t.pica.qd % 256 = low.toNat ∧ t.raised 8 = true ∧
          t.pica.num = s.pica.num ∧ t.pica.td = s.pica.td) ∧
      (s.pica.td % 256 ≠ low.toNat → (recentSlips s.pica.slipsTd s.pica.num).length ≤ 4 →
        ∃ t, exec (.picaMark .td low) s = .next t ∧ t.pica.td % 256 = low.toNat ∧ t.raised 8 = true ∧
          t.pica.num = s.pica.num ∧ t.pica.qd = s.pica.qd))

/-- The whole second carries into the seconds, applies a pending SEC and increment and raises PPS_OUT (R43, R47, R53); PPS_OUT
falls; a TIM_ADJ step moves the time base (R43); and 500 ms after the rise one ToD message leaves, which names the next edge,
at which a pending SEC applies, and sums right (R409, Table 2-8). A whole second that comes before the sum reaches it marks
the second itself (the model's choice, log entry 5). Completes: wholeSecond, ppsOutFall, todTxSend, timAdj. -/
def Obligations.SecondsAndPpsOut : Prop :=
  ∀ (s : State), s.mgmt = true →
    (∀ p v, s.writable p .TIM_ADJ 0 0 0 → ∃ t, exec (.timAdj p v) s = .next t ∧ t.tb = s.tb.step v) ∧
    (∀ l, ∃ t, exec (.wholeSecond l) s = .next t ∧ t.tb.ppsOut = true ∧ t.tb.ns < nsPerSec ∧
      t.tb.sec = (s.tb.pendSec.getD (s.tb.sec + Nat.max 1 (s.tb.ns / nsPerSec))) % 2 ^ 48 ∧
      t.tb.incr = s.tb.pendIncr.getD s.tb.incr ∧ .pin .ppsOut true ∈ t.out) ∧
    (s.tb.ppsOut = true → exec .ppsOutFall s =
      .next (State.emit { s.begin with tb := { s.tb with ppsOut := false, ppsHigh := 0 } } (.pin .ppsOut false))) ∧
    (s.tb.todDue = true →
      ∃ t m, exec .todTxSend s = .next t ∧ t.out = [.todTx m] ∧ t.tb.todDue = false ∧ m.length = 10 ∧
        todValid 500 m = true ∧ beNat (slice m 2 6) = (s.tb.pendSec.getD (s.tb.secNow + 1)) % 2 ^ 48)

/-- The PPS discipline of R44 and R45: in host mode an edge sets PPS_SEEN alone; in PPS mode the fourth good edge in a row
sets LOCK; a missing edge clears PPS_SEEN and LOCK and raises PPS_MISSING; a valid message names the seconds of the next edge
and any other raises TOD_BAD. Completes: ppsEdge, ppsTimeout, todMessage. -/
def Obligations.PpsDiscipline : Prop :=
  ∀ (s : State), s.mgmt = true →
    (s.ppsMode = false → exec .ppsEdge s = .next (s.begin.setF F.TIM_STATUS_PPS_SEEN 1)) ∧
    (∀ sec, s.ppsMode = true → s.tb.tod = some sec → s.tb.phaseError sec ≤ s.f F.TIM_CTRL_LOCK_NS → 3 ≤ s.tb.good →
      ∃ t, exec .ppsEdge s = .next t ∧ t.fb F.TIM_STATUS_LOCK = true ∧ t.fb F.TIM_STATUS_PPS_SEEN = true) ∧
    (∃ t, exec .ppsTimeout s = .next t ∧ t.fb F.TIM_STATUS_PPS_SEEN = false ∧ t.raised 6 = true ∧
      (s.ppsMode = true → t.fb F.TIM_STATUS_LOCK = false ∧ t.tb.good = 0) ∧
      (s.ppsMode = false → t.fb F.TIM_STATUS_LOCK = s.fb F.TIM_STATUS_LOCK)) ∧
    (∀ ms b, todValid ms b = true → s.fb F.TIM_STATUS_PPS_SEEN = true →
      exec (.todMessage ms b) s = .next { s.begin with tb := { s.tb with tod := some (beNat (slice b 2 6)), todFresh := true } }) ∧
    (∀ ms b, todValid ms b = false → exec (.todMessage ms b) s = .next (s.begin.raise 7))

/-! ### Events and statistics (chapter 16) -/

/-- A delivered event sets its source's pending bit; with LOG it leaves one record; the change from 0 to 1 with EN sends its
vector's message unless that is held off or masked (R35, R380, R382, R383). A holdoff that collapsed triggers ends with one
message and a new holdoff; while the HOST group is in reset no message leaves (R40). Completes: eventRaise, holdoffExpiry. -/
def Obligations.EventsReachTheHost : Prop :=
  ∀ (s : State), s.mgmt = true →
    (∀ (n : BitVec 11) x, mget s.evt.xing n.toNat = some x → x.again = none → n.toNat < 1024 →
      ∃ t, exec (.eventRaise n) s = .next t ∧ t.pendBit n.toNat = true ∧ t.raised n.toNat = false ∧
        (s.fb F.EVT_CTRL_LOG_EN = true → s.fb F.EVT_SRC_CFG_LOG n.toNat = true → n.toNat ≠ 15 → s.evt.log.length < 1024 →
          t.evt.log = s.evt.log ++ [⟨n.toNat, x.epoch, x.pica, x.data⟩]) ∧
        (s.grp.hostUp = false → t.out = []) ∧
        (s.pendBit n.toNat = false → s.fb F.EVT_SRC_CFG_EN n.toNat = true → s.grp.hostUp = true →
          mget s.evt.holdoff (s.f F.EVT_SRC_CFG_VECTOR n.toNat) = none → s.evt.msixEn = true → s.evt.msixMask = false →
          (s.msixEntry (s.f F.EVT_SRC_CFG_VECTOR n.toNat)).masked = false →
          t.out = [.msix (s.f F.EVT_SRC_CFG_VECTOR n.toNat) (s.msixEntry (s.f F.EVT_SRC_CFG_VECTOR n.toNat)).addr
            (s.msixEntry (s.f F.EVT_SRC_CFG_VECTOR n.toNat)).data]) ∧
        (s.pendBit n.toNat = true → t.out = [])) ∧
    (∀ (v : BitVec 6), mget s.evt.holdoff v.toNat = some true → s.grp.hostUp = true → s.evt.msixEn = true → s.evt.msixMask = false →
      (s.msixEntry v.toNat).masked = false →
      ∃ t, exec (.holdoffExpiry v) s = .next t ∧
        t.out = [.msix v.toNat (s.msixEntry v.toNat).addr (s.msixEntry v.toNat).data] ∧
        mget t.evt.holdoff v.toNat = if s.f F.EVT_VEC_CFG_HOLDOFF_US v.toNat = 0 then none else some false)

/-- An update of a cached record adds to its entry, within the 128 that its bank takes in a pica; a flush slot adds bank A to
the record in HBM and clears it, the entry staying the record's (R387, R388). Completes: statUpdate, counterFlush. -/
def Obligations.CountsAreKept : Prop :=
  ∀ (s : State), s.coreRuns = true →
    (∀ (b : BitVec 4) p e, s.cnt.posts.find? (fun p => p.key % 16 == b.toNat) = some p → mget s.cnt.cache p.key = some e →
      s.toBankB p = false → mgetD s.cnt.taken b.toNat 0 < 128 →
      ∃ t, exec (.statUpdate b) s = .next t ∧ t.cnt.posts = s.cnt.posts.erase p ∧
        mget t.cnt.cache p.key = some { e with a := addCounts e.a p.add } ∧ t.cnt.recs = s.cnt.recs) ∧
    (∀ (k : BitVec 27) e, s.cnt.cache = [(k.toNat, e)] → e.urgent = false → zeroCounts e.a = false → zeroCounts e.b = true →
      s.cnt.evicted = [] → s.cnt.snapping = none → s.hbm.poison = [] → s.cnt.flushed < 32 →
      (s.begin.hbmAsk 4 true (recordSpan k.toNat)).1 = true →
      ∃ t, exec (.counterFlush k false) s = .next t ∧ t.cnt.cache = [(k.toNat, { e with a := [0, 0, 0, 0] })] ∧
        t.cnt.flushed = s.cnt.flushed + 1 ∧
        mgetD t.cnt.recs k.toNat [] = addCounts (mgetD s.cnt.recs k.toNat []) e.a)

/-- A snapshot is done when bank A is empty: SNAP_PICA names its pica, SNAP_DONE and FROZEN set and CNT_SNAP_DONE is raised; a
freeze that expires is reported and joins the banks; an export period starts an export with its own snapshot, and its pulse
advances SEQ and ends the freeze; CNT_CTRL asks for a snapshot and releases one (R390, R391). Completes: cntSnapshot,
snapshotDone, cntRelease, freezeExpiry, exportPeriod, exportPulse. -/
def Obligations.SnapshotsAndExports : Prop :=
  ∀ (s : State), s.coreRuns = true →
    (∀ p (v : W32), s.writable p .CNT_CTRL 0 0 0 → F.CNT_CTRL_FREEZE_MS.of (v.setWidth 64) ∈ List.range' 1 100 →
      F.CNT_CTRL_FLUSH_MS.of (v.setWidth 64) ∈ List.range' 1 1000 →
      (F.CNT_CTRL_SNAPSHOT.of (v.setWidth 64) = 1 → F.CNT_CTRL_RELEASE.of (v.setWidth 64) = 0 → s.cnt.snapAsked = false →
        s.cnt.snapping = none → s.fb F.CNT_STATUS_FROZEN = false →
        ∃ t, exec (.cntSnapshot p v) s = .next t ∧ t.cnt = { s.cnt with snapAsked := true }) ∧
      (F.CNT_CTRL_SNAPSHOT.of (v.setWidth 64) = 0 → F.CNT_CTRL_RELEASE.of (v.setWidth 64) = 1 →
        s.fb F.CNT_STATUS_FROZEN = true → s.cnt.exportWait = false →
        ∃ t, exec (.cntRelease p v) s = .next t ∧ t.fb F.CNT_STATUS_FROZEN = false ∧ t.fb F.CNT_STATUS_SNAP_DONE = false ∧
          ∀ k, mget t.cnt.cache k = (mget s.cnt.cache k).map fun e => { a := addCounts e.a e.b })) ∧
    (∀ p, s.cnt.snapping = some p → s.bankAFlushed p = true →
      ∃ t, exec .snapshotDone s = .next t ∧ t.rd .CNT_SNAP_PICA 0 0 0 = BitVec.ofNat 64 p ∧
        t.fb F.CNT_STATUS_SNAP_DONE = true ∧ t.fb F.CNT_STATUS_FROZEN = true ∧ t.cnt.snapping = none ∧ t.raised 35 = true) ∧
    (s.fb F.CNT_STATUS_FROZEN = true → s.cnt.exportWait = false →
      ∃ t, exec .freezeExpiry s = .next t ∧ t.fb F.CNT_STATUS_FROZEN = false ∧ t.fb F.CNT_STATUS_SNAP_DONE = false ∧
        t.fb F.CNT_STATUS_FREEZE_EXPIRED = true ∧ t.raised 38 = true ∧
        ∀ k, mget t.cnt.cache k = (mget s.cnt.cache k).map fun e => { a := addCounts e.a e.b }) ∧
    (s.fb F.CNT_EXP_CFG_EN = true → s.standalone = true → s.cnt.exporting = false → s.cnt.snapAsked = false →
      s.cnt.snapping = none → s.fb F.CNT_STATUS_FROZEN = false →
      ∃ t, exec .exportPeriod s = .next t ∧ t.cnt.exporting = true ∧ t.cnt.snapAsked = true ∧
        t.fb F.CNT_EXP_STATUS_BUSY = true) ∧
    (s.cnt.exporting = true → s.cnt.pulsed = true → s.cnt.expired = false → s.exporterRuns = true →
      s.fb F.DMA_CH_STATUS_LATE (s.f F.CNT_EXP_CFG_CHANNEL) = false → s.cnt.exportWait = false →
      ∃ t, exec .exportPulse s = .next t ∧ t.f F.CNT_EXP_STATUS_SEQ = (s.f F.CNT_EXP_STATUS_SEQ + 1) %
          (F.CNT_EXP_STATUS_SEQ.max + 1) ∧ t.fb F.CNT_STATUS_FROZEN = false ∧ t.fb F.CNT_EXP_STATUS_BUSY = false ∧
        t.cnt.exporting = false ∧ t.raised 36 = true)

/-! ### Power and temperature (chapter 16) -/

/-- Power states change as R394 to R396 say: a group enters the deepest state its latency tolerance and its condition allow, a
condition that fails, and a write of LTR_US below the latency of the state in force, starts an exit, the exit's end is P0;
P4_REQ starts the drain and ends it; P4 is entered with nothing inside and left once the PLLs have relocked. Completes:
powerStateEntry, powerStateExit, ltrWrite, p4Request, p4DrainTimeout, p4Release, p4ExitDone, powerStateExitDone. -/
def Obligations.PowerStatesChange : Prop :=
  ∀ (s : State), s.mgmt = true → s.core = true →
    (∀ p (g : Fin 8) (v : W32), s.writable p .PWR_GRP_CFG g.val 0 0 →
      ∃ t, exec (.ltrWrite p g v) s = .next t ∧ t.f F.PWR_GRP_CFG_LTR_US g.val = F.PWR_GRP_CFG_LTR_US.of (v.setWidth 64) ∧
        ∀ st lat, (st, lat) ∈ [(1, 2), (2, 20), (3, 500)] → s.f F.PWR_GRP_STATUS_STATE g.val = st →
          F.PWR_GRP_CFG_LTR_US.of (v.setWidth 64) < lat →
          t.pwr.leaving.contains (if s.f F.PWR_STATUS_DEVICE = 3 then 8 else g.val) = true) ∧
    (∀ p (v : W32), s.writable p .PWR_CTRL 0 0 0 →
      (s.doublet = false → s.fb F.PWR_CTRL_P4_REQ = false → F.PWR_CTRL_P4_REQ.of (v.setWidth 64) = 1 →
        ∃ t, exec (.p4Request p v) s = .next t ∧ t.fb F.PWR_CTRL_P4_REQ = true ∧ t.pwr.p4Drain = true) ∧
      (s.fb F.PWR_CTRL_P4_REQ = true → F.PWR_CTRL_P4_REQ.of (v.setWidth 64) = 0 →
        ∃ t, exec (.p4Release p v) s = .next t ∧ t.fb F.PWR_CTRL_P4_REQ = false ∧ t.pwr.p4Drain = false ∧
          t.pwr.p4Relock = (s.f F.PWR_STATUS_DEVICE == 4))) ∧
    (∀ (g : Fin 9), g.val < 8 → s.f F.PWR_STATUS_DEVICE < 3 → s.pwr.leaving.contains g.val = false → s.pwr.p4Drain = false →
      s.f F.PWR_GRP_STATUS_STATE g.val < s.deepest g.val →
      ∃ t, exec (.powerStateEntry g) s = .next t ∧ t.f F.PWR_GRP_STATUS_STATE g.val = s.deepest g.val ∧ t.raised 9 = true) ∧
    (∀ (g : Fin 9), g.val < 8 → s.f F.PWR_STATUS_DEVICE < 3 → s.deepest g.val < s.f F.PWR_GRP_STATUS_STATE g.val →
      s.f F.PWR_GRP_STATUS_STATE g.val ≤ 3 → s.pwr.leaving.contains g.val = false →
      exec (.powerStateExit g) s = .next { s.begin with pwr := { s.pwr with leaving := s.pwr.leaving ++ [g.val] } }) ∧
    (∀ (g : Fin 9), g.val < 8 → s.pwr.leaving.contains g.val = true →
      ∃ t, exec (.powerStateExitDone g) s = .next t ∧ t.f F.PWR_GRP_STATUS_STATE g.val = 0 ∧
        t.pwr.leaving.contains g.val = false) ∧
    (s.pwr.p4Drain = true →
      ∃ t, exec .p4DrainTimeout s = .next t ∧ t.f F.PWR_STATUS_DEVICE = 4 ∧ t.insideFrames = [] ∧ t.pwr.p4Drain = false ∧
        ∀ g, g < 8 → t.f F.PWR_GRP_STATUS_STATE g = 4) ∧
    (s.pwr.p4Relock = true →
      ∃ t, exec .p4ExitDone s = .next t ∧ t.f F.PWR_STATUS_DEVICE = 0 ∧ t.pwr.p4Relock = false ∧
        ∀ g, g < 8 → t.f F.PWR_GRP_STATUS_STATE g = 0)

/-- A sample stores the 22 die temperatures; at 115 °C on any sensor the trip sets and the CORE group is held (R398, R399),
until every sensor has fallen 10 °C below CRIT. Completes: thermalSample, thermalTripRelease. -/
def Obligations.TemperatureTrips : Prop :=
  ∀ (s : State), s.mgmt = true →
    (∀ (l : List (BitVec 16)), l.length = 22 →
      ∃ t, exec (.thermalSample l) s = .next t ∧ (∀ i, i < 22 → t.f F.PWR_THERM_SENSOR_TEMP i = (l.getD i 0).toNat) ∧
        (s.fb F.PWR_THERM_STATUS_TRIP = false → 460 ≤ t.hottest.2 → t.fb F.PWR_THERM_STATUS_TRIP = true ∧
          t.grp.holds.contains .thermal = true ∧ t.raised 13 = true)) ∧
    (s.grp.holds.contains .thermal = true → s.hottest.2 < ((s.f F.PWR_THERM_CFG_CRIT : Int) - 10) * 4 →
      exec .thermalTripRelease s = .next { s.begin with grp := { s.grp with holds := s.grp.holds.filter (· != .thermal) } })

/-! ### Line ports and link crypto (chapters 3 and 4) -/

/-- A frame that passes the receive checks of an enabled port and needs no decryption enters its slice's FIFO without its FCS
and with its receive time. A MACsec frame of a valid receive SA whose number is not below the lowest acceptable one is opened
with AES-GCM under the SA's key and the nonce of its packet number, and enters the FIFO without SecTAG and ICV; the SA's
numbers follow and it counts there (R84, R92, R93, R101; the SecTAG's layout is IEEE 802.1AE's, log entry 18). An ESP frame to
process enters the slice's ESP buffer; one that fails a check drops under the check's reason and counts; in near and serial
loopback the line is ignored, in far loopback its frame leaves again (R27, R48, R60, R76, R81); a draining device takes no new
frame (R396). Completes: lineFrameReceive. -/
def Obligations.LineFramesAreReceived : Prop :=
  ∀ (port : BitVec 7) (b : List Byte) (cut : Bool) (g : GfpInfo) (s : State), s.coreRuns = true →
    let p := port.toNat
    let body := b.take (b.length - 4)
    let f : RxFrame := { port := p, bytes := body, sec := (s.tb.stamp (signed16 (s.pf F.LNE_TS_ADJ_RX_ADJ p))).1,
                         ns := (s.tb.stamp (signed16 (s.pf F.LNE_TS_ADJ_RX_ADJ p))).2 }
    (s.pwr.p4Drain = false → s.pf F.LNE_PORT_CTRL_LOOPBACK p = 0 → s.portEn p = true → s.rxFailing p = false →
      s.fb F.CRY_STATUS_ZERO_DONE = true →
      (s.rxCheck p b cut g = none → s.fb F.CRY_PORT_CFG_MACSEC_EN p = false → espFind body = none →
        s.fifoRoom (p / 16) body.length = true →
        ∃ t, exec (.lineFrameReceive port b cut g) s = .next t ∧
          t.fifoOf (p / 16) = s.fifoOf (p / 16) ++ [{ f with entered := s.pica.num }] ∧
          t.cnt.posts = s.cnt.posts ++ [⟨statKey spPort (2 * p), [1, body.length + 4], s.pica.num⟩]) ∧
      (∀ c i pt, s.rxCheck p b cut g = none → s.fb F.CRY_PORT_CFG_MACSEC_EN p = true → be16 body 12 = 0x88E5 →
        let tci := beNat (slice body 14 1)
        let sl := beNat (slice body 15 1)
        let pn32 := beNat (slice body 16 4)
        let sci := if bit tci 5 then beNat (slice body 20 8) else beNat (slice body 6 6) * 65536 + 1
        let off := if bit tci 5 then 28 else 20
        let n := if sl = 0 then body.length - off - 16 else sl
        let data := slice body off n
        let icv := slice body (off + n) 16
        let e := s.sa i
        let pn := if e.ext then xpnRecover e.limit pn32 else pn32
        let nonce := if e.ext then beBytes 12 (e.salt ^^^ (e.id32 * 2 ^ 64 + pn)) else beBytes 8 sci ++ beBytes 4 pn
        let co := match s.f F.CRY_PORT_CFG_CONF_OFFSET p with | 1 => 30 | 2 => 50 | _ => 0
        let out := body.take 12 ++ if bit tci 3 then data.take co ++ pt else data
        bit tci 7 = false → (bit tci 5 = true → bit tci 6 = false ∧ bit tci 4 = false) → sl < 48 → (e.ext = false → pn32 ≠ 0) →
        (if sl = 0 then off + 64 ≤ body.length else body.length = Nat.max 60 (off + sl + 16)) →
        s.scFind p sci = some c → bit c.anValid (tci % 4) = true → c.sa.getD (tci % 4) 0 = i → e.valid = true → e.type = 0 →
        (s.fb F.CRY_PORT_CFG_REPLAY_EN p = true → e.limit ≤ pn) →
        (if bit tci 3 then Std.gcmOpen e.key nonce (body.take off ++ data.take co) (data.drop co) icv = some pt
          else Std.gcmOpen e.key nonce (body.take off ++ data) [] icv = some pt) →
        espFind out = none → s.fifoRoom (p / 16) out.length = true →
        ∃ t, exec (.lineFrameReceive port b cut g) s = .next t ∧
          t.fifoOf (p / 16) = s.fifoOf (p / 16) ++ [{ f with bytes := out, prot := true, valid := true, rxSa := i,
                                                             entered := s.pica.num }] ∧
          ⟨statKey spSa i, [1, out.length + 4, 0], s.pica.num⟩ ∈ t.cnt.posts ∧
          t.sa i = { e with nextPn := Nat.max e.nextPn (pn + 1), limit := Nat.max e.limit (Nat.max e.nextPn (pn + 1) -
            Nat.min 1024 (s.f F.CRY_PORT_CFG_REPLAY_WIN p)) }) ∧
      (∀ x, s.rxCheck p b cut g = none → s.fb F.CRY_PORT_CFG_MACSEC_EN p = false → espFind body = some x → x.frag = false →
        s.fb F.CRY_CTRL_ESP_EN = true → s.fb F.CRY_PORT_CFG_ESP_IN_EN p = true →
        fifoBytes (mgetD s.cry.espIn (p / 16) []) + body.length ≤ 1048576 →
        ∃ t, exec (.lineFrameReceive port b cut g) s = .next t ∧ t.fifoOf (p / 16) = s.fifoOf (p / 16) ∧
          mgetD t.cry.espIn (p / 16) [] = mgetD s.cry.espIn (p / 16) [] ++ [f]) ∧
      (∀ code ctr, s.rxCheck p b cut g = some (code, ctr) →
        ∃ t, exec (.lineFrameReceive port b cut g) s = .next t ∧ t.fifoOf (p / 16) = s.fifoOf (p / 16) ∧
          t.rd .CNT_DROP_TOTAL 0 0 0 = s.rd .CNT_DROP_TOTAL 0 0 0 + 1 ∧
          mgetD t.lne.live (p * 32 + ctr) 0 = Nat.min 0xFFFFFFFF (mgetD s.lne.live (p * 32 + ctr) 0 + 1))) ∧
    (s.pwr.p4Drain = false → s.pf F.LNE_PORT_CTRL_LOOPBACK p = 2 → s.portEn p = true →
      s.pfb F.LNE_PORT_CTRL_TX_DISABLE p = false →
      ∃ t, exec (.lineFrameReceive port b cut g) s = .next t ∧ t.cry.fifo = s.cry.fifo ∧ t.out = [.lineTx p b]) ∧
    (s.loopedIn p = true ∨ (s.pwr.p4Drain = true ∧ cut = false) → exec (.lineFrameReceive port b cut g) s = .next s.begin)

/-- A raw defect that applies to its port becomes raw and is reported unless a raw defect suppresses it (R69); the timed ones
likewise, and LOL does not end while the port's reference stands (R416); a lane's machine follows each evaluated position,
with the numbers of lanes and spacings of IEEE 802.3 and G.709.1 (log entry 16), locked lanes are ordered by their markers
(R68), and RESTART takes every lane to HUNT (R64, R66); a lane test records lock and errors on a lane of no enabled port
(R77). Completes: alignPattern, portRestart, laneTestCheck, defectChange, defectTimer. -/
def Obligations.DefectsAndAlignment : Prop :=
  ∀ (port : BitVec 7) (d : Fin 21) (raw : Bool) (s : State), s.coreRuns = true → s.portEn port.toNat = true →
    let p := port.toNat
    (∀ c, c = Instr.defectChange port d raw ∨ (c = Instr.defectTimer port d raw ∧ timedDefect d.val raw = true) →
      (d.val = 1 → raw = false → s.refLostAt p = false) → defectApplies (s.portOtn p) d.val = true → bit (s.raw p) d.val ≠ raw → s.raw p < 2 ^ 21 →
      ∃ t, exec c s = .next t ∧ t.raw p = putBit (s.raw p) d.val raw ∧
        t.rd .LNE_DEFECT_RPT (p / 16) (p % 16) 0 = BitVec.ofNat 64 (reported (s.portOtn p) (s.timAct p) (t.raw p))) ∧
    (∀ w (v : W32), s.writable w .LNE_PORT_CTRL (p / 16) (p % 16) 0 → F.LNE_PORT_CTRL_RESTART.of (v.setWidth 64) = 1 →
      F.LNE_PORT_CTRL_MAX_FRAME.of (v.setWidth 64) ≤ s.f F.BUF_CTRL_MAX_FRAME →
      ∃ t, exec (.portRestart w port v) s = .next t ∧ bit (t.raw p) 2 = true ∧ ∀ l, l < 8 → t.alignOf p l = {}) ∧
    (∀ (lane : BitVec 8) marker (x : Nat) (hit : Bool), lane.toNat < alignLanes (s.portMode p) → s.refLostAt p = false →
      ∃ t, exec (.alignPattern (.line port marker) lane x hit) s = .next t ∧
        t.alignOf p lane.toNat = ((s.alignOf p lane.toNat).eval (alignN (s.pf F.LNE_ALIGN_CFG_N p))
          (alignM (s.pf F.LNE_ALIGN_CFG_M p)) (patternSpacing (s.portMode p)) x hit).1 ∧
        mget t.lne.order p = if t.allLocked p then some (t.laneOrder p) else none) ∧
    (∀ (lane : BitVec 7) (errors : Nat), s.fb F.LNE_LANE_TEST_CHK_EN (lane.toNat / 16) (lane.toNat % 16) = true →
      s.laneInUse (lane.toNat / 16) (lane.toNat % 16) = false →
      ∃ t, exec (.laneTestCheck lane true errors) s = .next t ∧
        t.fb F.LNE_LANE_TEST_CHK_LOCK (lane.toNat / 16) (lane.toNat % 16) = true ∧
        t.f F.LNE_LANE_TEST_ERR (lane.toNat / 16) (lane.toNat % 16) = Nat.min F.LNE_LANE_TEST_ERR.max
          (s.f F.LNE_LANE_TEST_ERR (lane.toNat / 16) (lane.toNat % 16) + errors))

/-- An alignment machine in lock leaves it for HUNT on the M-th errored pattern in a row and on nothing else; in HUNT it never
holds more than four candidates, and it locks only on a hit (R64, R65). -/
def Obligations.AlignmentLocksAndUnlocks : Prop :=
  ∀ (a : Align) (n m spacing x : Nat) (hit : Bool),
    (a.locked = true → ((a.eval n m spacing x hit).1.locked = false ↔ x = a.expect ∧ m = (if hit then 0 else a.err + 1))) ∧
    (a.locked = false → a.cands.length ≤ 4 → (a.eval n m spacing x hit).1.cands.length ≤ 4 ∧
      ((a.eval n m spacing x hit).1.locked = true → hit = true ∧ ∃ c, c ∈ a.cands ∧ c.1 = x ∧ c.2 + 1 = n))

/-- The overhead of a received OTN frame is counted and kept, the port's own frame of that time carries the BIP-8 blocks back
as BEI and the transmit trail trace (R62, R63, R67), and a core header moves GFP delineation, whose loss is the raw defect
GFP_LFD. Completes: otnFrameReceive, gfpCoreHeader. -/
def Obligations.OtnOverheadIsFollowed : Prop :=
  ∀ (port : BitVec 7) (oh : OtnOverhead) (c : Chec) (s : State), s.coreRuns = true → s.portEn port.toNat = true →
    s.portOtn port.toNat = true →
    let p := port.toNat
    (∃ t, exec (.otnFrameReceive port oh) s = .next t ∧ (mgetD t.lne.otn p {}).mfas = oh.mfas.toNat ∧
      (mgetD t.lne.otn p {}).smBei = oh.smBip ∧ (mgetD t.lne.otn p {}).pmBei = oh.pmBip ∧
      mgetD t.lne.live (p * 32 + ctrSmBip) 0 = Nat.min 0xFFFFFFFF (mgetD s.lne.live (p * 32 + ctrSmBip) 0 + oh.smBip) ∧
      (s.pfb F.LNE_PORT_CTRL_TX_DISABLE p = false → s.pf F.LNE_PORT_CTRL_LOOPBACK p < 2 →
        ∃ x u v, .otnTx p x u v ∈ t.out ∧ x.smBei = oh.smBip ∧ x.pmBei = oh.pmBip ∧ x.smTti = s.ttiBytes .LNE_TTI_TX_SM p ∧
          x.pmTti = s.ttiBytes .LNE_TTI_TX_PM p)) ∧
    (∃ t, exec (.gfpCoreHeader port c) s = .next t ∧
      mgetD t.lne.gfp p {} = (mgetD s.lne.gfp p {}).next (s.gfpDelta p) c ∧
      bit (t.raw p) 15 = ((mgetD t.lne.gfp p {}).state != .sync))

/-- ESP and the SA cache: a buffered frame whose SA is cached is taken; where its ICV, number and padding pass it enters the
slice's FIFO in clear, and where the ICV fails it drops under CRY_ESP_ICV; a fetched SA enters the cache with its numbers; a
poisoned fetch caches nothing; a switch of a transmit SA renames it on every port that names it (R91); the zeroing ends with
ZERO_DONE (R81, R88, R94, R100, R235). Completes: cryZeroDone, saCacheFill, espInbound, crySaSwitch. -/
def Obligations.SecurityAssociationsAreCached : Prop :=
  ∀ (s : State), s.coreRuns = true →
    (∀ (sl : Fin 8) f x, mgetD s.cry.espIn sl.val [] = [f] → espFind f.bytes = some x →
      let spi := beNat (slice f.bytes x.off 4)
      (mget s.cry.cache (spi % 2 ^ 18)).isSome = true → (s.sa (spi % 2 ^ 18)).espMatch x spi = true →
      (s.sa (spi % 2 ^ 18)).valid = true → (s.sa (spi % 2 ^ 18)).ext = false → f.espNoSa = false →
      let e := s.sa (spi % 2 ^ 18)
      let seq := beNat (slice f.bytes (x.off + 4) 4)
      let opened := Std.gcmOpen e.key (beBytes 4 (e.salt % 2 ^ 32) ++ slice f.bytes (x.off + 8) 8)
        (beBytes 4 spi ++ beBytes 4 seq) (slice f.bytes (x.off + 16) (x.fin - x.off - 32)) (slice f.bytes (x.fin - 16) 16)
      (opened = none →
        ∃ t, exec (.espInbound sl) s = .next t ∧ mgetD t.cry.espIn sl.val [] = [] ∧ t.cry.fifo = s.cry.fifo ∧
          t.rd .CNT_DROP_TOTAL 0 0 0 = s.rd .CNT_DROP_TOTAL 0 0 0 + 1 ∧
          ⟨statKey spReason 0x016, [1, f.bytes.length + 4], s.pica.num⟩ ∈ t.cnt.posts) ∧
      (∀ pt e1, opened = some pt → espReplay e seq = some e1 →
        let n := pt.length
        let k := beNat (slice pt (n - 2) 1)
        let nh := beNat (slice pt (n - 1) 1)
        let out := espRestore f.bytes x e.tunnel (pt.take (n - 2 - k)) nh
        k + 2 ≤ n → espPadOk (slice pt (n - 2 - k) k) = true → (e.tunnel = true → nh = 4 ∨ nh = 41) →
        s.fifoRoom (f.port / 16) out.length = true →
        ∃ t, exec (.espInbound sl) s = .next t ∧ mgetD t.cry.espIn sl.val [] = [] ∧ t.sa (spi % 2 ^ 18) = e1 ∧
          t.fifoOf (f.port / 16) = s.fifoOf (f.port / 16) ++ [{ f with bytes := out, rxSa := spi % 2 ^ 18, prot := true,
                                                                       valid := true, espDec := true, entered := s.pica.num }])) ∧
    (∀ (i : BitVec 18), mget s.cry.cache i.toNat = none → s.poisoned (saLA i.toNat) 256 = false →
      ((s.begin.readEnd (saRead i.toNat)).hbmAsk 3 true [(saLA i.toNat, 256)]).1 = true →
      ∃ t, exec (.saCacheFill i false) s = .next t ∧ mget t.cry.cache i.toNat = some (mgetD s.cry.sa i.toNat {}) ∧
        t.sa i.toNat = s.sa i.toNat) ∧
    (∀ (i : BitVec 18), mget s.cry.cache i.toNat = none → s.cry.espIn = [] → s.que.espOut = [] →
      ((s.begin.readEnd (saRead i.toNat)).hbmAsk 3 true [(saLA i.toNat, 256)]).1 = true →
      ∃ t, exec (.saCacheFill i true) s = .next t ∧ t.cry.cache = s.cry.cache) ∧
    (∀ p (v : W32) n, s.writable p .CRY_SA_SWITCH 0 0 0 → n < 2 ^ 18 →
      s.successor (F.CRY_SA_SWITCH_SA.of (v.setWidth 64)) = some n →
      ∃ t, exec (.crySaSwitch p v) s = .next t ∧ (t.sa (F.CRY_SA_SWITCH_SA.of (v.setWidth 64))).switched = some n ∧
        ∀ port, port < 128 → t.f F.CRY_TX_SA_SA port =
          if s.fb F.CRY_TX_SA_EN port = true ∧ s.f F.CRY_TX_SA_SA port = F.CRY_SA_SWITCH_SA.of (v.setWidth 64) then n
          else s.f F.CRY_TX_SA_SA port) ∧
    (s.fb F.CRY_STATUS_ZERO_DONE = false → s.hbmReady = true →
      ∃ t, exec .cryZeroDone s = .next t ∧ t.cry.sa = [] ∧ t.cry.cache = [] ∧ t.cry.cam = [] ∧
        t.fb F.CRY_STATUS_ZERO_DONE = true)

/-- One draw of a packet number never repeats one and never gives 0 (that no step lowers a number is PacketNumbersNeverFall):
a valid unspent SA that has not switched hands out its next number, or 1 for 0, and keeps a higher one; one that is not valid,
and a spent one without a successor, hand out none (R87, R90, R91; where a switched SA leads is the model's choice, log entry
89, of which the statement says nothing). -/
def Obligations.TransmitNumbersNeverRepeat : Prop :=
  ∀ (s : State) (i fuel : Nat), 0 < fuel → (s.sa i).switched = none →
    let n := max 1 (s.sa i).nextPn
    ((s.sa i).valid = true → n ≤ (s.sa i).maxPn →
      (State.txNumber fuel s i).1 = .ok (i, n) ∧ ((State.txNumber fuel s i).2.sa i).nextPn = n + 1) ∧
    ((s.sa i).valid = false → (State.txNumber fuel s i).1 = .error 0x1B) ∧
    ((s.sa i).valid = true → (s.sa i).maxPn < n → s.successor i = none → (State.txNumber fuel s i).1 = .error 0x1C)

/-- The MKA service on a port (R95 to R97, R100, R105): once the SA region is cleared, a verified PDU of a new live peer makes
it the peer and wants a key; one of a second live peer unsecures the port; the peer's report that it has installed the new key
switches transmit; the hello time sends one PDU with its FCS; a silent peer leaves the port unsecured; a spent lifetime and a
TX SA past its LIMIT want a rekey; the RX SA that a switch replaced is deleted, the oldest first. The election and the PDU are
IEEE 802.1X's (log entry 87), the SA indices come with the commands (20), and LIMIT is rounded (88). Completes: mkpduReceive,
mkaHelloTimer, mkaLifeExpiry, sakLifetimeExpiry, mkaOldSaExpiry, mkaPnCheck. -/
def Obligations.KeyAgreementProceeds : Prop :=
  ∀ (port : BitVec 7) (rx tx : BitVec 18) (s : State), s.coreRuns = true → s.mgmt = true →
    let p := port.toNat
    let m := s.mkaPort p
    (∀ pdu : MkPdu, s.mkaRuns p = true → s.fb F.CRY_STATUS_ZERO_DONE = true → (mget s.mka.caks p).isSome = true → pdu.icvOk = true →
      let q : MkaPeer := ⟨pdu.member, pdu.number.toNat, pdu.sci.toNat, pdu.prio.toNat⟩
      (m.peer = none → pdu.live = true → m.elected pdu.prio.toNat pdu.sci.toNat = false → pdu.sak = none →
        exec (.mkpduReceive port pdu rx tx) s = .next (s.begin.setMka p { m with
          peer := some q, heard := none, server := false, want := true })) ∧
      (∀ old, m.peer = some old → old.member ≠ pdu.member → pdu.live = true →
        ∃ t, exec (.mkpduReceive port pdu rx tx) s = .next t ∧ (t.mkaPort p).secured = false ∧ (t.mkaPort p).crowd = true ∧
          (m.secured = true → t.raised 261 = true)) ∧
      (∀ old, m.peer = some old → old.member ≠ pdu.member → pdu.live = false →
        exec (.mkpduReceive port pdu rx tx) s = .next (s.begin.setMka p { m with heard := some q })) ∧
      (∀ old r, m.peer = some old → old.member = pdu.member → pdu.sak = none → m.crowd = false → m.rekey = some r →
        pdu.rxInstalled = some (BitVec.ofNat 32 r.kn) → r.kn < 2 ^ 32 →
        ∃ t, exec (.mkpduReceive port pdu rx tx) s = .next t ∧ (t.mkaPort p).rekey = none ∧ (t.mkaPort p).an = r.an ∧
          (t.mkaPort p).secured = true ∧ (t.mkaPort p).oldRx = m.oldRx ++
            if m.secured then [(m.an, (mgetD s.cry.cam m.scIdx {}).sa.getD m.an 0)] else [])) ∧
    (∀ c, s.mkaRuns p = true → s.fb F.CRY_STATUS_ZERO_DONE = true → mget s.mka.caks p = some c → m.server = false →
      (s.cannotSend p = false → s.pf F.LNE_PORT_CTRL_LOOPBACK p = 0 → s.portOtn p = false →
        let b := (s.setMka p { m with msg := m.msg + 1 }).mkaFrame p c.1 c.2
        ∃ t, exec (.mkaHelloTimer port rx tx) s = .next t ∧ t.mkaPort p = { m with msg := m.msg + 1 } ∧
          t.out = [.lineTx p (b ++ fcs b)] ∧ slice b 12 2 = [0x88, 0x8E]) ∧
      (s.cannotSend p = true →
        exec (.mkaHelloTimer port rx tx) s = .next (s.begin.setMka p { m with msg := m.msg + 1 }))) ∧
    (m.run = true → m.secured = true →
      ∃ t, exec (.mkaLifeExpiry port) s = .next t ∧ (t.mkaPort p).peer = none ∧ (t.mkaPort p).secured = false ∧
        t.raised 261 = true) ∧
    (m.run = true → m.secured = true → m.sakLife ≠ 0 →
      exec (.sakLifetimeExpiry port) s = .next (s.begin.setMka p { m with want := true })) ∧
    (∀ an i rest, m.oldRx = (an, i) :: rest →
      ∃ t, exec (.mkaOldSaExpiry port) s = .next t ∧ (t.mkaPort p).oldRx = rest ∧ (t.sa i).valid = false ∧
        (t.sa i).key = List.replicate 32 0) ∧
    (m.run = true → s.fb F.CRY_TX_SA_EN p = true → (s.sa (s.f F.CRY_TX_SA_SA p)).valid = true →
      (s.sa (s.f F.CRY_TX_SA_SA p)).limit < (s.sa (s.f F.CRY_TX_SA_SA p)).nextPn →
      ∃ t, exec .mkaPnCheck s = .next t ∧ (t.mkaPort p).want = true ∧ t.cry = s.cry)

/-- The egress path of a line port. The slice's editor takes the next scheduled frame and releases its chains: a chain with
more owners has one less, a last owner's segments are free (R214). An edited frame waits for the line as it is, or sealed:
under MACsec behind a SecTAG (the layout is IEEE 802.1AE's, log entry 18), or under ESP behind the IP header, with the packet
number that its SA sends next, which then is one higher (R87, R89, R90, R103). The port sends its next frame with its FCS and
counts it, an OTN port in a GFP-F frame beside the overhead of its OTUCn frame, which it sends without a client frame too
(R60, R61; scrambler and BIP-8 start free, log entry 107); in far loopback the frame is dropped (R76), and on a port that
cannot send under LNE_TX_DOWN where DOWN_ACT is 1 (R72). Completes: egressEdit, lineFrameTransmit. -/
def Obligations.EgressSendsFrames : Prop :=
  ∀ (s : State), s.coreRuns = true →
    (∀ (sl : Fin 8) port p, s.fb F.CRY_STATUS_ZERO_DONE = true → mgetD s.que.espOut sl.val [] = [] →
      s.que.toEdit = [(port, p)] → port / 16 = sl.val → s.pktBad p = false →
      let r := (s.edit port { p with chains := [] }).1
      let b := r.bytes
      let line := mgetD s.que.toLine port []
      (s.cannotSend port = false → p.espEn = false → s.fb F.CRY_PORT_CFG_MACSEC_EN port = false →
        b.length + 4 ≤ s.maxFrame port →
        ∃ t, exec (.egressEdit sl) s = .next t ∧ t.que.toEdit = [] ∧ mgetD t.que.toLine port [] = line ++ [(r, b)] ∧
          (p.chains = [] → t.buf = s.buf) ∧
          (∀ h, p.chains = [h] → (s.linkOf h).state = true → 1 < (s.linkOf h).owners →
            t.buf.pools = s.buf.pools ∧ (∀ x, t.linkOf x = if x = h then { s.linkOf h with owners := (s.linkOf h).owners - 1 }
              else s.linkOf x)) ∧
          (∀ h, p.chains = [h] → (∀ x ∈ s.segsOf h, (s.linkOf x).state = true) → (s.linkOf h).owners ≤ 1 →
            (∀ x, t.linkOf x = if x ∈ s.segsOf h then { s.linkOf x with state := false } else s.linkOf x) ∧
            ∀ x ∈ s.segsOf h, x ∈ (mgetD t.buf.pools (handlePool x) (0, [])).2)) ∧
      (s.cannotSend port = false → p.espEn = false → s.fb F.CRY_PORT_CFG_MACSEC_EN port = true →
        s.fb F.CRY_PORT_CFG_PROTECT port = true → be16 b 12 ≠ 0x888E → s.fb F.CRY_TX_SA_EN port = true →
        let i := s.f F.CRY_TX_SA_SA port
        let e := s.sa i
        let pn := Nat.max 1 e.nextPn
        let sci := s.fb F.CRY_PORT_CFG_INCLUDE_SCI port
        let enc := s.fb F.CRY_PORT_CFG_ENCRYPT port
        let co := match s.f F.CRY_PORT_CFG_CONF_OFFSET port with | 1 => 30 | 2 => 50 | _ => 0
        let tag := [0x88, 0xE5, BitVec.ofNat 8 (b2n sci * 32 + b2n enc * 12 + e.an),
            BitVec.ofNat 8 (if b.length - 12 < 48 then b.length - 12 else 0)] ++ beBytes 4 (pn % 2 ^ 32) ++
          if sci then beBytes 8 e.sci else []
        let hdr := b.take 12 ++ tag
        let data := b.drop 12
        let nonce := if e.ext then beBytes 12 (e.salt ^^^ (e.id32 * 2 ^ 64 + pn)) else beBytes 8 e.sci ++ beBytes 4 pn
        let out := if enc then hdr ++ data.take co ++ Std.gcmSeal e.key nonce (hdr ++ data.take co) (data.drop co)
          else hdr ++ data ++ Std.gcmSeal e.key nonce (hdr ++ data) []
        e.valid = true → e.type = 1 → e.switched = none → pn < (if e.ext then 2 ^ 64 else 2 ^ 32) →
        out.length + 4 ≤ s.maxFrame port →
        ∃ t, exec (.egressEdit sl) s = .next t ∧ t.que.toEdit = [] ∧ mgetD t.que.toLine port [] = line ++ [(r, out)] ∧
          (t.sa i).nextPn = pn + 1 ∧ ⟨statKey spSa i, [1, b.length + 4, 0], s.pica.num⟩ ∈ t.cnt.posts) ∧
      (s.cannotSend port = false → p.espEn = true → s.fb F.CRY_CTRL_ESP_EN = true →
        s.fb F.CRY_PORT_CFG_MACSEC_EN port = false → be16 b 12 = 0x0800 →
        let e := s.sa p.sa
        let seq := Nat.max 1 e.nextPn
        let n := beNat (slice b 14 1) % 16 * 4
        let data := slice b (14 + n) (be16 b 16 - n)
        let nh := if e.tunnel then (if beNat (slice b (14 + n) 1) / 16 = 4 then 4 else 41) else beNat (slice b 23 1)
        let pad := (4 - (data.length + 2) % 4) % 4
        let pt := data ++ (List.range pad).map (fun k => BitVec.ofNat 8 (k + 1)) ++ [BitVec.ofNat 8 pad, BitVec.ofNat 8 nh]
        let aad := beBytes 4 e.id32 ++ if e.ext then beBytes 8 seq else beBytes 4 (seq % 2 ^ 32)
        let esp := beBytes 4 e.id32 ++ beBytes 4 (seq % 2 ^ 32) ++ beBytes 8 seq ++
          Std.gcmSeal e.key (beBytes 4 (e.salt % 2 ^ 32) ++ beBytes 8 seq) aad pt
        e.valid = true → e.type = 3 → e.switched = none → seq < (if e.ext then 2 ^ 64 else 2 ^ 32) →
        (mget s.cry.cache p.sa).isSome = true → 20 ≤ n → 14 + n ≤ b.length → n + esp.length < 65536 →
        14 + n + esp.length + 4 ≤ s.maxFrame port →
        ∃ t h, exec (.egressEdit sl) s = .next t ∧ t.que.toEdit = [] ∧
          mgetD t.que.toLine port [] = line ++ [({ r with bytes := b.take 14 ++ h ++ esp }, b.take 14 ++ h ++ esp)] ∧
          h.length = n ∧ be16 h 2 = n + esp.length ∧ slice h 9 1 = [50] ∧ be16 h 10 = ipChecksum (splice h 10 [0, 0]) ∧
          (∀ k, k < n → k ∉ [2, 3, 9, 10, 11] → h[k]? = b[14 + k]?) ∧
          (t.sa p.sa).nextPn = seq + 1 ∧ ⟨statKey spSa p.sa, [1, b.length + 4, 0], s.pica.num⟩ ∈ t.cnt.posts) ∧
      (s.cannotSend port = true → s.pfb F.LNE_PORT_CTRL_DOWN_ACT port = true →
        ∃ t, exec (.egressEdit sl) s = .next t ∧ t.que.toEdit = [] ∧ t.que.toLine = s.que.toLine ∧
          t.rd .CNT_DROP_TOTAL 0 0 0 = s.rd .CNT_DROP_TOTAL 0 0 0 + 1 ∧
          ⟨statKey spReason 0x008, [1, p.bytes.length + 4], s.pica.num⟩ ∈ t.cnt.posts)) ∧
    (∀ (port : BitVec 7) p b rest, mgetD s.que.toLine port.toNat [] = (p, b) :: rest →
      (s.cannotSend port.toNat = false → s.portOtn port.toNat = false → s.pf F.LNE_PORT_CTRL_LOOPBACK port.toNat = 0 →
        ∃ t, exec (.lineFrameTransmit port) s = .next t ∧ t.out = [.lineTx port.toNat (b ++ fcs b)] ∧
          mgetD t.que.toLine port.toNat [] = rest ∧
          t.cnt.posts = s.cnt.posts ++ [⟨statKey spPort (2 * port.toNat + 1), [1, b.length + 4], s.pica.num⟩]) ∧
      (s.cannotSend port.toNat = false → s.portOtn port.toNat = true → s.pf F.LNE_PORT_CTRL_LOOPBACK port.toNat = 0 →
        ∃ t u v, exec (.lineFrameTransmit port) s = .next t ∧
          t.out = [.otnTx port.toNat (s.otnSend port.toNat) u v, .lineTx port.toNat
            (gfpFrame (mgetD s.lne.scram port.toNat (Config.gfpScrambler port.toNat)) (b ++ fcs b)).1] ∧
          mgetD t.que.toLine port.toNat [] = rest) ∧
      (s.cannotSend port.toNat = false → s.pf F.LNE_PORT_CTRL_LOOPBACK port.toNat = 2 →
        ∃ t, exec (.lineFrameTransmit port) s = .next t ∧ mgetD t.que.toLine port.toNat [] = rest ∧
          (∀ x f, .lineTx x f ∉ t.out) ∧ ⟨statKey spReason 0x009, [1, p.bytes.length + 4], s.pica.num⟩ ∈ t.cnt.posts) ∧
      (s.cannotSend port.toNat = true → s.pfb F.LNE_PORT_CTRL_DOWN_ACT port.toNat = true →
        ∃ t, exec (.lineFrameTransmit port) s = .next t ∧ mgetD t.que.toLine port.toNat [] = rest ∧
          t.rd .CNT_DROP_TOTAL 0 0 0 = s.rd .CNT_DROP_TOTAL 0 0 0 + 1 ∧
          (∀ x f, .lineTx x f ∉ t.out))) ∧
    (∀ (port : BitVec 7), mgetD s.que.toLine port.toNat [] = [] → s.cannotSend port.toNat = false →
      s.portOtn port.toNat = true → s.pf F.LNE_PORT_CTRL_LOOPBACK port.toNat = 0 →
      ∃ t u v, exec (.lineFrameTransmit port) s = .next t ∧ t.out = [.otnTx port.toNat (s.otnSend port.toNat) u v])

/-! ### Exact match and the ternary die (chapters 6 and 7) -/

/-- A store answers its oldest lookup with a hit's kind and result or with a miss (R130, R132, R185); a learn request moves a
dynamic entry to its new result (R138); NOW ticks (R140); a due removal at the head of the FIFO deletes its entry with a
notice (R141); the sweeper passes one bucket of its table on (R140); clearing EN queues the freeing of a table, which at the
head of its FIFO leaves the table without entries (R125); after the clear, which waits for HBM, the stores are empty (R143,
R243). In the far store each goes on once HBM accepts its reads. Completes: xmtClearDone, exactMatchLookup, learnApply,
ageingTick, sweeperVisit, sweeperRemoval, tableDisable, tableFreeDone. -/
def Obligations.ExactMatchStores : Prop :=
  ∀ (far : Bool) (s : State), s.coreRuns = true → s.hbm.poison = [] → mwf s.exm.ent = true →
    (∀ r rest, mgetD s.exm.reqs (b2n far) [] = r :: rest → r.en = true → r.ready = true → r.touch = false → r.learn = false →
      s.xStore r.table = b2n far → s.lookRoom far (s.lookWays r) = true →
      (far = true → (s.begin.hbmAsk 2 true (farSpans (s.lookWays r))).1 = true) →
      ∃ t w, exec (.exactMatchLookup far []) s = .next t ∧ mgetD t.exm.reqs (b2n far) [] = rest ∧
        t.ppe.resp = s.ppe.resp ++ [⟨r.thread, r.gen, r.rd, [w]⟩] ∧ t.exm.ent = s.exm.ent ∧
        (s.xFind r.table (s.xKey r.table r.key) = none → bits w.toNat 63 62 = 0) ∧
        ∀ x e, s.xFind r.table (s.xKey r.table r.key) = some x → s.xAt x = some e → e.kind < 4 →
          bits w.toNat 63 62 = 1 ∧ bits w.toNat 61 60 = e.kind ∧ bits w.toNat 31 0 = e.result % 2 ^ 32) ∧
    (∀ r rest x e, s.xFifo (b2n far) = [] → mgetD s.exm.learn (b2n far) [] = r :: rest → s.xStore r.table = b2n far →
      (far = true → (s.begin.hbmAsk 2 true (farSpans (s.keyWays r.table r.key))).1 = true) →
      s.xFind r.table (s.xKey r.table r.key) = some x → s.xAt x = some e → e.kind = 0 →
      ∃ t, exec (.learnApply far) s = .next t ∧ mgetD t.exm.learn (b2n far) [] = rest ∧
        t.xAt x = some { e with result := r.result, hit := true, aged := false }) ∧
    (∀ tb : BitVec 4, s.xEn tb.toNat = true → s.fb F.XMT_CTRL_SWEEP_EN = true →
      exec (.ageingTick tb) s = .next (s.begin.setF F.XMT_TBL_TIME_NOW ((s.xNow tb.toNat + 1) % 65536) tb.toNat)) ∧
    (∀ tb key x e, s.xFifo (b2n far) = [.removal tb key] → s.xStore tb = b2n far →
      (far = true → (s.begin.hbmAsk 2 true (farSpans (s.keyWays tb key))).1 = true) →
      s.xFind tb key = some x → s.xAt x = some e → entDue e = true → s.exm.cam = [] → s.hst.learned.length < 4096 →
      ∃ t, exec (.sweeperRemoval far) s = .next t ∧ t.xFifo (b2n far) = [] ∧ t.xAt x = none ∧
        t.hst.learned.length = s.hst.learned.length + 1) ∧
    (∀ tb, s.fb F.XMT_CTRL_SWEEP_EN = true → s.exm.swept.contains (b2n far) = false →
      (List.range 16).find? (fun t => s.xEn t && s.xStore t == b2n far && decide (s.sweepD t ≤ mgetD s.exm.acc t 0)) = some tb →
      (far = true → (s.begin.hbmAsk 2 true (farSpans ((List.range 4).map
        (entKey (b2n far) (s.f F.XMT_TBL_BASE_BASE tb + mgetD s.exm.pos tb 0 % s.xSize tb))))).1 = true) →
      ∃ t, exec (.sweeperVisit far []) s = .next t ∧ mgetD t.exm.acc tb 0 = mgetD s.exm.acc tb 0 - s.sweepD tb ∧
        mgetD t.exm.pos tb 0 = (mgetD s.exm.pos tb 0 % s.xSize tb + 1) % s.xSize tb ∧
        t.exm.ent.map (·.1) = s.exm.ent.map (·.1)) ∧
    (∀ p (tb : BitVec 4) (v : W32), s.writable p .XMT_TBL_CFG tb.toNat 0 0 → s.xEn tb.toNat = true →
      F.XMT_TBL_CFG_EN.of (v.setWidth 64) = 0 → s.xStore tb.toNat = b2n far →
      (s.rd .XMT_TBL_CFG tb.toNat 0 0 ^^^ v.setWidth 64) &&&
        ~~~(BitVec.ofNat 64 (F.XMT_TBL_CFG_EN.mask + F.XMT_TBL_CFG_LEARN.mask)) = 0 →
      ∃ t, exec (.tableDisable p tb v) s = .next t ∧ t.xEn tb.toNat = false ∧
        t.xFifo (b2n far) = s.xFifo (b2n far) ++ (if s.f F.XMT_TBL_ENTRIES_ENTRIES tb.toNat = 0 then [] else
          [.free tb.toNat (s.f F.XMT_TBL_BASE_BASE tb.toNat) (s.xSize tb.toNat)])) ∧
    (∀ (tb : BitVec 4) base size, s.xFifo (b2n far) = [.free tb.toNat base size] → s.xFifo (b2n (!far)) = [] →
      ∃ t, exec (.tableFreeDone tb) s = .next t ∧ (t.exm.ent.all fun kv => kv.2.table != tb.toNat) = true ∧
        (t.exm.cam.all fun kv => kv.2.e.table != tb.toNat) = true ∧ t.f F.XMT_TBL_ENTRIES_ENTRIES tb.toNat = 0 ∧
        t.xFifo (b2n far) = []) ∧
    (s.fb F.XMT_STATUS_CLEAR_DONE = false → s.hbmReady = true →
      ∃ t, exec .xmtClearDone s = .next t ∧ t.exm.ent = [] ∧ t.exm.cam = [] ∧ t.fb F.XMT_STATUS_CLEAR_DONE = true)

/-- A fence is done once no frame older than it is inside, and then shows its generation and raises XMT_FENCE; one that waits
past FENCE_WARN is reported once (R144 to R146). The oldest notice of the learning ring is posted to the notice queue: its
words go to host memory, with an extension entry for wide keys, and without room NOTICE_LOST sets (R139, R358, R367).
Completes: learnNoticeForward, fenceDone, fenceSlow. -/
def Obligations.FencesAndNotices : Prop :=
  ∀ (s : State),
    (∀ f rest, s.coreRuns = true → s.exm.fences = f :: rest → f.gen < 256 →
      ((∀ p ∈ s.insidePicas, f.pica ≤ p) →
        ∃ t, exec .fenceDone s = .next t ∧ t.exm.fences = rest ∧ t.f F.XMT_FENCE_STATUS_DONE = f.gen ∧ t.raised 292 = true ∧
          t.fenceDone f.gen = true) ∧
      ((∃ p ∈ s.insidePicas, p < f.pica) → exec .fenceDone s = .next s.begin) ∧
      (s.f F.XMT_FENCE_WARN_US ≠ 0 → f.slow = false → s.f F.XMT_FENCE_WARN_US * 1000 < (s.pica.num - f.pica) * 16 →
        ∃ t, exec .fenceSlow s = .next t ∧ t.exm.fences = { f with slow := true } :: rest ∧
          t.fb F.XMT_FENCE_STATUS_SLOW = true ∧ t.raised 291 = true)) ∧
    (∀ n rest, s.mgmt = true → s.hst.learned = n :: rest →
      ∃ t, exec .learnNoticeForward s = .next t ∧ t.hst.learned = rest ∧ t.exm = s.exm ∧
        (s.fb F.HST_CTRL_NOTICE_EN = false → t = { s.begin with hst := { s.hst with learned := rest } }) ∧
        (s.fb F.HST_CTRL_NOTICE_EN = true →
          let c := s.f F.HST_CTRL_NOTICE_CQ
          let pi := s.f F.HST_CQ_PI_INDEX c
          let a := fun i => s.f F.HST_CQ_ADDR_ADDR c * 4096 + i % 2 ^ s.f F.HST_CQ_CFG_SIZE c * 32
          (s.cqRoom c (if n.wide then 2 else 1) = false → t.fb F.HST_STATUS_NOTICE_LOST = true ∧ t.out = []) ∧
          (s.cqRoom c (if n.wide then 2 else 1) = true →
            t.f F.HST_CQ_PI_INDEX c = (pi + (if n.wide then 2 else 1)) % 2 ^ 32 ∧
            (.hostWrite (a pi) ([0xF0 * 2 ^ 32, n.key % 2 ^ 64,
                learnDetail (n.kind + 1) n.table n.store n.cam n.wide n.idx, n.result].flatMap (leBytes 8))) ∈ t.out ∧
            (n.wide = true →
              (.hostWrite (a ((pi + 1) % 2 ^ 32)) ([0xF1 * 2 ^ 32, n.key / 2 ^ 64 % 2 ^ 64,
                learnDetail (n.kind + 1) n.table n.store n.cam n.wide n.idx % 256, n.key / 2 ^ 128].flatMap
                  (leBytes 8))) ∈ t.out))))

/-- An inserted key is found with its entry, wherever R133 puts it: in a free way, in a way that a relocation frees, or in the
overflow CAM; it was not there before (R129, R130, R133). -/
def Obligations.InsertedEntryIsFound : Prop :=
  ∀ (s u : State) (e : XEntry), e.table < 16 → s.xInsert e = (.ok, u) →
    (∃ x, u.xFind e.table e.key = some x ∧ u.xAt x = some e) ∧ s.xFind e.table e.key = none ∧
    (∀ t, t < 16 → u.xEn t = s.xEn t ∧ u.xNow t = s.xNow t) ∧ u.trn = s.trn ∧ u.cry = s.cry

/-- A search port answers its oldest search, whose place goes to a request that waits. Where the array is sound a hit is the
valid entry with the lowest first row, in an enabled block of the table that the key's facet takes in, which matches the key
under its mask, with its result; where there is none the answer is a miss; a search of a disabled table or of another width is
an error (R151, R152). It spends its passes times its rows of the port's 32 slots a pica, and without one it waits (R25, R26,
R154; what it takes beyond them is the next pica's: log entry 91). The scrubber goes on row by row and leaves the row as the
shadow holds it, but for one with a write waiting (R164, R167); after the clear no row is valid, and the ports that failed
their test are retired (R168, R169), as a port named by the host is; a run at the head of the FIFO ends with BUSY clear, and
one behind other operations has not begun (R162, R163). Completes: trnClearDone, tdSearch, tdScrubRow, runMoveEnd,
tdPortRetire. -/
def Obligations.TernarySearches : Prop :=
  ∀ (port : BitVec 4) (s : State), s.coreRuns = true → (∀ kv ∈ s.trn.rows, kv.1 < 2 ^ 22) →
    (∀ q rest rd, s.portQ port.toNat = q :: rest → q.dest = .eng rd → q.table < 64 → s.trn.bad = [] →
      mgetD s.trn.held (port.toNat / 2) [] = [] → mgetD s.trn.slots port.toNat 0 < 32 →
      let w := tdRows (s.f F.TRN_TBL_CFG_WIDTH q.table)
      let hit := fun r => (s.row r).valid = true ∧ r % w = 0 ∧ s.rowTable r = some q.table ∧
        s.blockOn q.table (r / 4096) q.key = true ∧ (q.key &&& (s.entryVM r w).2) = ((s.entryVM r w).1 &&& (s.entryVM r w).2)
      ∃ t word st, exec (.tdSearch port ⟨[], 0, []⟩) s = .next t ∧ t.portQ port.toNat = rest ∧
        t.ppe.resp = s.ppe.resp ++ [⟨q.thread, q.gen, rd, [word, st]⟩] ∧ t.trn.rows = s.trn.rows ∧
        (s.fb F.TRN_TBL_CFG_EN q.table = false → bits st.toNat 63 59 = 16) ∧
        (s.fb F.TRN_TBL_CFG_EN q.table = true → s.f F.TRN_TBL_CFG_WIDTH q.table ≠ q.width → bits st.toNat 63 59 = 17) ∧
        (s.fb F.TRN_TBL_CFG_EN q.table = true → s.f F.TRN_TBL_CFG_WIDTH q.table = q.width →
          ((∀ r, ¬ hit r) → bits st.toNat 63 62 = 0) ∧
          (∀ r, hit r → (∀ r', r' < r → ¬ hit r') →
            bits st.toNat 63 62 = 1 ∧ bits st.toNat 21 0 = r ∧ word = BitVec.ofNat 64 (s.row r).result) ∧
          mgetD t.trn.slots port.toNat 0 = mgetD s.trn.slots port.toNat 0 + (s.tdPasses q.table q.key).2 * w)) ∧
    (32 ≤ mgetD s.trn.slots port.toNat 0 → exec (.tdSearch port ⟨[], 0, []⟩) s = .next s.begin) ∧
    (∀ ups, s.f F.TRN_CTRL_SCRUB_RATE ≠ 0 →
      ∃ t, exec (.tdScrubRow ups) s = .next t ∧ t.trn.scrub = (s.trn.scrub + 1) % 4194304 ∧ t.trn.rows = s.trn.rows ∧
        (s.rowWaits s.trn.scrub = false →
          t.arr s.trn.scrub = ⟨(s.row s.trn.scrub).valid, (s.row s.trn.scrub).value, (s.row s.trn.scrub).mask⟩)) ∧
    (∀ failed, s.fb F.TRN_STATUS_CLEAR_DONE = false →
      ∃ t, exec (.trnClearDone failed) s = .next t ∧ t.trn.rows = [] ∧ t.trn.bad = [] ∧ t.fb F.TRN_STATUS_CLEAR_DONE = true ∧
        (s.trn.tested = false → ∀ k ∈ failed, t.portLive k.toNat = false)) ∧
    (∀ p (k : Fin 16), s.writable p .TRN_PORT_RETIRE 0 0 0 → s.portLive k.val = true →
      ∃ t, exec (.tdPortRetire p (BitVec.ofNat 32 (2 ^ k.val))) s = .next t ∧ t.portLive k.val = false ∧ t.portQ k.val = [] ∧
        t.raised 322 = true) ∧
    (∀ m rest, s.trn.fifo = .run m :: rest →
      ∃ t, exec .runMoveEnd s = .next t ∧ t.trn.fifo = rest ∧ t.fb F.TRN_MOVE_STATUS_BUSY = false) ∧
    ((∀ m rest, s.trn.fifo ≠ .run m :: rest) → exec .runMoveEnd s = .next s.begin)

/-! ### Buffers, queues and memory (chapters 9, 10, 11) -/

/-- BUILD starts the build of a good configuration alone, and the free lists are built full (R207); an audit, AUDIT_MS after
the last, inverts the mark, walks, sweeps, reports a buffer that two audits found unmarked, and ends with BUSY clear; with
counts that agree it reports nothing (R221, R222). Completes: bufBuild, bufBuildDone, loupeAuditStart, loupeStep,
loupeAuditEnd. -/
def Obligations.BuffersAndTheLoupe : Prop :=
  ∀ (s : State), s.coreRuns = true →
    (∀ p (v : W32), s.writable p .BUF_CTRL 0 0 0 → F.BUF_CTRL_BUILD.of (v.setWidth 64) = 1 →
      (s.rd .BUF_CTRL 0 0 0 ^^^ v.setWidth 64) &&& BitVec.ofNat 64 (Reg.info .BUF_CTRL).rwl = 0 →
      s.fb F.BUF_STATUS_CFG_DONE = false →
      ∃ t, exec (.bufBuild p v) s = .next t ∧ t.buf.building = s.bufCfgOk ∧
        (s.bufCfgOk = false → t.fb F.BUF_STATUS_CFG_ERR = true)) ∧
    (s.buf.building = true → s.bufCfgOk = true →
      ∃ t, exec .bufBuildDone s = .next t ∧ t.fb F.BUF_STATUS_CFG_DONE = true ∧ t.buf.building = false ∧
        (∀ k ∈ s.poolList, t.poolFree k = s.bufCount k) ∧ t.f F.BUF_SPILL_FREE = s.spillTotal % 2 ^ 24) ∧
    (s.fb F.BUF_CTRL_LOUPE_EN = true → s.fb F.BUF_STATUS_CFG_DONE = true → s.fb F.BUF_LOUPE_STATUS_BUSY = false →
      s.buf.loupe.since + s.auditMs * 62500 ≤ s.pica.num →
      ∃ t, exec .loupeAuditStart s = .next t ∧ t.buf.loupe.mark = (!s.buf.loupe.mark) ∧
        t.buf.loupe.audit = s.buf.loupe.audit + 1 ∧ t.fb F.BUF_LOUPE_STATUS_BUSY = true) ∧
    (s.fb F.BUF_LOUPE_STATUS_BUSY = true → s.buf.loupe.sweeping = false →
      (s.buf.loupe.walk + 64 < 1048576 →
        ∃ t, exec .loupeStep s = .next t ∧ t.buf.loupe.walk = s.buf.loupe.walk + 64 ∧ t.buf.link = s.buf.link) ∧
      (1048576 ≤ s.buf.loupe.walk + 64 →
        ∃ t, exec .loupeStep s = .next t ∧ t.buf.loupe.sweeping = true ∧
          ∀ p ∈ s.heldPkts, ∀ h ∈ p.chains, ∀ x ∈ s.segsOf h, ∀ e, mget t.buf.link x = some e → e.mark = s.buf.loupe.mark)) ∧
    (∀ h e, s.fb F.BUF_LOUPE_STATUS_BUSY = true → s.buf.loupe.sweeping = true → s.buf.link = [(h, e)] → e.state = true →
      e.mark = !s.buf.loupe.mark → s.buf.loupe.sweep ≤ s.linkPlace h → s.linkPlace h < s.buf.loupe.sweep + 64 →
      s.linkPlace h < s.linkTotal → s.fb F.BUF_CTRL_RECLAIM = false → s.buf.loupe.reports.length < 64 →
      ∃ t, exec .loupeStep s = .next t ∧ t.buf.loupe.nowStale = s.buf.loupe.nowStale ++ [h] ∧
        t.buf.loupe.reports = s.buf.loupe.reports ++
          (if s.buf.loupe.stale.contains h then [⟨s.buf.loupe.audit % 65536, 1, h⟩] else [])) ∧
    (s.fb F.BUF_LOUPE_STATUS_BUSY = true → s.buf.loupe.sweeping = true → s.linkTotal ≤ s.buf.loupe.sweep →
      (∀ k ∈ s.poolList, s.poolFree k + (s.buf.link.filter fun e => e.2.state && handlePool e.1 == k).length = s.bufCount k) →
      s.bundlesFree + s.bundlesHeld = s.spillTotal →
      ∃ t, exec .loupeAuditEnd s = .next t ∧ t.fb F.BUF_LOUPE_STATUS_BUSY = false ∧ t.buf.loupe.reports = s.buf.loupe.reports ∧
        t.buf.loupe.stale = s.buf.loupe.nowStale)

/-- Arrivals are admitted in order to the queue they name; a frame of a group is replicated to its members, each copy in the
queue its member names with that member's adjustment, and the owners of its chains rise by the members beyond the first (R214,
R255); the oldest full bundle goes to HBM, and comes back when its queue wants it, its frames in buffers again at the end of
their queue, or waiting where a pool has none; a retry goes on with a restore that waited; a refill adds a period's tokens up
to the burst; a flush ends with its frames dropped (R217 to R220, R251 to R256, R266). Completes: queueAdmit, mcReplicate,
bundleWrite, bundleRestore, restoreRetry, shaperRefill, queueFlushDone. -/
def Obligations.QueuesHoldAndSpill : Prop :=
  ∀ (s : State), s.coreRuns = true →
    (∀ p rest, s.que.arrivals = p :: rest → p.kind = .send → p.mc = false → p.polEn = false → s.mayName .send p.qid = true →
      (s.qOf p.qid).spilling = false → (s.limits p.qid).2.1 = 0 → s.onDie p.qid + p.bytes.length ≤ (s.limits p.qid).1 →
      s.total p.qid + p.bytes.length ≤ (s.limits p.qid).2.2.2.1 →
      ∃ t, exec .queueAdmit s = .next t ∧ t.que.arrivals = rest ∧
        (t.qOf p.qid).frames = (s.qOf p.qid).frames ++ [{ p with yellow := false }]) ∧
    (∀ x rest, s.que.mcWork = none → s.que.replicas < 128 → s.que.mc = x :: rest → s.hbm.poison = [] →
      (s.begin.hbmAsk 2 true (s.groupSpans x.p.group)).1 = true →
      (s.groupMembers x.p.group = [] → x.p.chains = [] →
        ∃ t, exec .mcReplicate s = .next t ∧ t.que.mc = rest ∧ t.rd .CNT_DROP_TOTAL 0 0 0 = s.rd .CNT_DROP_TOTAL 0 0 0 + 1) ∧
      (∀ ms, s.groupMembers x.p.group = ms → ms ≠ [] → ms.length ≤ 128 - s.que.replicas → x.p.chains.Nodup →
        (∀ h ∈ x.p.chains, (s.linkOf h).owners + ms.length - 1 ≤ 65535) → x.p.yellow = false →
        (ms.map fun m => bits m 19 0).Nodup →
        (∀ m ∈ ms, let q := bits m 19 0
          s.mayName (.replica x.egress) q = true ∧ (s.qOf q).spilling = false ∧ (s.limits q).2.1 = 0 ∧
          s.onDie q + x.p.bytes.length ≤ (s.limits q).1 ∧ s.total q + x.p.bytes.length ≤ (s.limits q).2.2.2.1) →
        ∃ t, exec .mcReplicate s = .next t ∧ t.que.mc = rest ∧ t.que.mcWork = none ∧
          t.que.replicas = s.que.replicas + ms.length ∧
          (∀ h ∈ x.p.chains, (t.linkOf h).owners = (s.linkOf h).owners + ms.length - 1) ∧
          ∀ m ∈ ms, (t.qOf (bits m 19 0)).frames = (s.qOf (bits m 19 0)).frames ++
            [{ x.p with kind := .replica x.egress, mc := false, qid := bits m 19 0
                        adj := if bit m 62 then bits m 57 40 else x.p.adj }])) ∧
    (∀ x ms, s.que.mcWork = some (x, ms) → s.que.replicas < 128 →
      ∃ t, exec .mcReplicate s = .next t ∧ t.que.mc = s.que.mc ∧
        t.que.replicas = s.que.replicas + min ms.length (128 - s.que.replicas) ∧
        t.que.mcWork = if ms.length ≤ 128 - s.que.replicas then none else some (x, ms.drop (128 - s.que.replicas))) ∧
    (∀ q b rest, s.buf.full = (q, b) :: rest → s.buf.wrote < 6 → s.bundlesFree ≠ 0 →
      (s.begin.hbmAsk 0 false [(bundleLA (if s.buf.bundleFresh < s.spillTotal then s.buf.bundleFresh
        else s.buf.bundleFree.headD 0), 4096)]).1 = true →
      (∀ p ∈ b.frames, p.chains = []) →
      ∃ t, exec .bundleWrite s = .next t ∧ t.buf.full = rest ∧ t.buf.wrote = s.buf.wrote + 1 ∧
        (t.qOf q).hbm.length = (s.qOf q).hbm.length + 1) ∧
    (∀ (q : BitVec 20) b rest, (s.qOf q.toNat).hbm = b :: rest → (s.qOf q.toNat).spilling = true →
      (s.qOf q.toNat).restoring = none → s.wantsRestore q.toNat = true → s.buf.read < 6 →
      (s.begin.hbmAsk 1 true [(bundleLA b.handle, 4096)]).1 = true → (s.qOf q.toNat).tails = [] → b.tail = false →
      s.hbm.poison = [] →
      (∃ t, exec (.bundleRestore q []) s = .next t ∧ (t.qOf q.toNat).hbm = rest ∧ t.buf.read = s.buf.read + 1) ∧
      (b.frames = [] →
        ∃ t, exec (.bundleRestore q []) s = .next t ∧ (t.qOf q.toNat).restoring = none ∧
          t.buf.bundleFree = s.buf.bundleFree ++ [b.handle]) ∧
      (∀ p h, b.frames = [p] → (s.begin.storeChain false 0 1 p.bytes.length).1 = .chain (some h) → rest ≠ [] →
        ∃ t, exec (.bundleRestore q []) s = .next t ∧ (t.qOf q.toNat).restoring = none ∧
          (t.qOf q.toNat).frames = (s.qOf q.toNat).frames ++ [{ p with chains := [h] }] ∧
          t.buf.bundleFree = s.buf.bundleFree ++ [b.handle]) ∧
      (∀ p l k, b.frames = p :: l → (s.begin.storeChain false 0 1 p.bytes.length).1 = .empty k →
        ∃ t, exec (.bundleRestore q []) s = .next t ∧ (t.qOf q.toNat).restoring = some b ∧
          (t.qOf q.toNat).restored = p :: l ∧ (t.qOf q.toNat).frames = (s.qOf q.toNat).frames)) ∧
    (∀ (q : BitVec 20) p k, (s.qOf q.toNat).restored = [p] → (s.begin.storeChain false 0 1 p.bytes.length).1 = .empty k →
      ∃ t, exec (.restoreRetry q) s = .next t ∧ (t.qOf q.toNat).restored = [p]) ∧
    (∀ (q : BitVec 20) p h, (s.qOf q.toNat).restored = [p] → (s.qOf q.toNat).spilling = false →
      (s.begin.storeChain false 0 1 p.bytes.length).1 = .chain (some h) →
      ∃ t, exec (.restoreRetry q) s = .next t ∧ (t.qOf q.toNat).restored = [] ∧
        (t.qOf q.toNat).frames = (s.qOf q.toNat).frames ++ [{ p with chains := [h] }]) ∧
    (∀ (l : Fin 4) (m : BitVec 18), s.nodeValid l.val m.toNat = true → s.pica.num % refillPeriod l.val = 0 →
      s.que.refilled.contains (nodeKey l.val m.toNat) = false →
      ∃ t, exec (.shaperRefill l m) s = .next t ∧ t.bucketOf l.val m.toNat =
        { c := min (bits (s.nodeOf l.val m.toNat).1 47 32 * 64000 : Nat) ((s.bucketOf l.val m.toNat).c +
            (bits (s.nodeOf l.val m.toNat).2 63 40 * refillPeriod l.val : Nat)),
          p := min (bits (s.nodeOf l.val m.toNat).1 31 16 * 64000 : Nat) ((s.bucketOf l.val m.toNat).p +
            (bits (s.nodeOf l.val m.toNat).2 39 16 * refillPeriod l.val : Nat)),
          w0 := (s.nodeOf l.val m.toNat).1, w1 := (s.nodeOf l.val m.toNat).2 }) ∧
    (∀ q p, s.que.flush = some (q, [p]) → p.chains = [] →
      ∃ t, exec .queueFlushDone s = .next t ∧ t.que.flush = none ∧ t.fb F.QUE_STATUS_FLUSH_BUSY = false ∧
        t.rd .CNT_DROP_TOTAL 0 0 0 = s.rd .CNT_DROP_TOTAL 0 0 0 + 1)

/-! ### Stacked memory, the Triplet lanes, the schedulers, the fabric and the Doublet (chapters 10 to 13) -/

/-- A read that its stacks accept counts its tags and, uncorrectable, its error (R230, R234); a command error is counted and
reported (R236); HBM_RETIRE starts a migration to the spare (R238); a migration goes on block by block to the spare, as
requests of class MAINT (R229, R238); a refresh shows temperature and rate, the doubled one above 85 °C (R240, R417); the
scrub goes on burst by burst and marks what it cannot correct (R241); an idle pseudo-channel powers down (R242); start-up
zeroes or says why not (R243 to R245). Completes: hbmStartupDone, hbmReadComplete, hbmCmdParity, hbmRetire,
migrationBlockCopy, refresh, patrolScrub, pchIdleTimeout. -/
def Obligations.StackedMemoryServes : Prop :=
  ∀ (s : State), s.coreRuns = true →
    (∀ (la : BitVec 36) bytes (cls : Fin 7), (s.begin.hbmAsk cls.val true [(la.toNat, bytes)]).1 = true →
      (∃ t, exec (.hbmReadComplete la bytes cls .ok) s = .next t ∧
        t.f F.HBM_READS_PEAK = max (s.f F.HBM_READS_PEAK)
          (min 8192 (s.tags + (List.range 4).foldl (fun a k => a + readTags k ⟨la.toNat, bytes, cls.val⟩) 0)) ∧
        t.hbm.poison = s.hbm.poison ∧ t.hbm.map = s.hbm.map) ∧
      (s.poisoned la.toNat 32 = false → s.f F.HBM_STACK_CNT_UE (la.toNat / 256 % 124 % 4) < 255 →
        ∃ t, exec (.hbmReadComplete la bytes cls .uncorrectable) s = .next t ∧ t.fb F.HBM_STATUS_UE = true ∧
          t.f F.HBM_STACK_CNT_UE (la.toNat / 256 % 124 % 4) = s.f F.HBM_STACK_CNT_UE (la.toNat / 256 % 124 % 4) + 1 ∧
          t.raised 453 = true)) ∧
    (∀ (k : Fin 4) p cls, ∃ t, exec (.hbmCmdParity k p cls) s = .next t ∧ t.fb F.HBM_STATUS_CMD_ERR = true ∧
      t.f F.HBM_ERR_INFO_KIND = 2 ∧ t.f F.HBM_ERR_INFO_CLASS = cls.val ∧ t.raised 454 = true ∧ t.hbm.mgmt = s.hbm.mgmt) ∧
    (∀ w (v : W32) k p, s.writable w .HBM_RETIRE 0 0 0 → F.HBM_RETIRE_GO.of (v.setWidth 64) = 1 →
      F.HBM_RETIRE_STACK.of (v.setWidth 64) = k → F.HBM_RETIRE_PCH.of (v.setWidth 64) = p → p ≠ s.spare k →
      s.pchState k p ≠ 2 → s.pchMoving k p = false → s.spareFree k = true →
      ∃ t, exec (.hbmRetire w v) s = .next t ∧ t.fb F.HBM_STACK_STATUS_MIGRATING k = true ∧
        t.f F.HBM_STACK_STATUS_RETIRED_PCH k = p ∧ t.f F.HBM_STACK_MIG_PTR k = 0 ∧ t.raised 455 = true) ∧
    (∀ k : Fin 4, s.fb F.HBM_STACK_STATUS_MIGRATING k.val = true →
      (let l := copySpans k.val (s.lpcOf k.val (s.f F.HBM_STACK_STATUS_RETIRED_PCH k.val)) (s.f F.HBM_STACK_MIG_PTR k.val)
       (s.begin.hbmAsk 6 true (l ++ l)).1 = true) →
      (s.f F.HBM_STACK_MIG_PTR k.val + 1 < s.hbmBlocks →
        ∃ t, exec (.migrationBlockCopy k [] []) s = .next t ∧ t.f F.HBM_STACK_MIG_PTR k.val = s.f F.HBM_STACK_MIG_PTR k.val + 1 ∧
          t.fb F.HBM_STACK_STATUS_MIGRATING k.val = true ∧ t.hbm.poison = s.hbm.poison ∧ t.hbm.map = s.hbm.map) ∧
      (s.hbmBlocks ≤ s.f F.HBM_STACK_MIG_PTR k.val + 1 →
        ∃ t, exec (.migrationBlockCopy k [] []) s = .next t ∧ t.fb F.HBM_STACK_STATUS_MIGRATING k.val = false ∧
          t.fb F.HBM_STACK_STATUS_SPARE_USED k.val = true ∧ t.raised 456 = true ∧
          t.hbmMap k.val (s.lpcOf k.val (s.f F.HBM_STACK_STATUS_RETIRED_PCH k.val)) = s.spare k.val)) ∧
    (∀ (k : Fin 4) temp dbl, ∃ t, exec (.refresh k temp dbl) s = .next t ∧
      t.f F.HBM_STACK_STATUS_TEMP k.val = temp.toNat ∧ t.fb F.HBM_STACK_STATUS_REFRESH_2X k.val = decide (85 < temp.toNat) ∧ t.hbm = s.hbm) ∧
    (s.fb F.HBM_CTRL_SCRUB_EN = true → (s.begin.hbmAsk 6 true [(s.hbm.scrub * 32, 32)]).1 = true →
      (∃ t, exec (.patrolScrub .ok) s = .next t ∧ t.hbm.poison = s.hbm.poison ∧
        t.hbm.scrub = (if s.hbm.scrub + 1 < s.hbmBursts then s.hbm.scrub + 1 else 0)) ∧
      (s.fb F.HBM_STACK_STATUS_MIGRATING (s.hbm.scrub * 32 / 256 % 124 % 4) = false →
        ∃ t, exec (.patrolScrub .uncorrectable) s = .next t ∧ t.hbm.poison.contains s.hbm.scrub = true)) ∧
    (∀ (k : Fin 4) (p : BitVec 5), s.f F.HBM_CTRL_IDLE_US ≠ 0 → s.fb F.HBM_STATUS_READY = true → s.pchState k.val p.toNat = 0 →
      ∃ t, exec (.pchIdleTimeout k p) s = .next t ∧ t.pchState k.val p.toNat = 1) ∧
    (s.fb F.HBM_STATUS_READY = false → s.fb F.HBM_STATUS_CAPACITY_MISMATCH = false → s.fb F.HBM_STATUS_TRAIN_FAIL = false →
      (∀ a b c d, s.hbm.trained = true →
        ∃ t, exec (.hbmStartupDone a b c d) s = .next t ∧ t.fb F.HBM_STATUS_READY = true ∧ t.hbm = s.hbm) ∧
      (∀ x : HbmStart, s.hbm.trained = false → s.densityOk x = true → x.badLanes = false → x.failed.length ≤ 1 →
        ∃ t, exec (.hbmStartupDone x x x x) s = .next t ∧ t.fb F.HBM_STATUS_READY = true ∧ t.fb F.HBM_STATUS_INIT_DONE = true ∧
          t.hbm.trained = true ∧ t.hbm.mgmt = [] ∧ t.hbm.poison = [] ∧ t.cnt.recs = [] ∧ t.cry.sa = []) ∧
      (∀ a b c d, s.hbm.trained = false → s.densityOk b = false →
        ∃ t, exec (.hbmStartupDone a b c d) s = .next t ∧ t.fb F.HBM_STATUS_CAPACITY_MISMATCH = true ∧
          t.fb F.HBM_STATUS_READY = false))

/-- Three lanes vote: equal copies, and two equal copies against a third, give the window, and the lane outvoted is counted
(R303, R304); a selected frame leaves for its port, charged to its node (R265); a Galley that is enabled holds GAP_GATES, one
that switches awaits its other bank, and it begins the awaited cycle and the next one, and goes from interval to interval
(R269, R270). Completes: voteWindowReceive, dequeueSelect, galleyEnable, galleySwitch, galleyIntervalEnd, galleyCycleStart. -/
def Obligations.DiesVoteAndSchedule : Prop :=
  ∀ (s : State), s.coreRuns = true →
    (∀ (d : Fin 2) (w : List W64), s.lanes d.val = [0, 1, 2] → voteOk w = true → (s.dir d.val).wants w = true →
      (s.fb F.MGT_STATUS_PROOF = false ∨ s.pica.qd % 256 = headOf w 63 56) →
      (∃ t, exec (.voteWindowReceive d [some w, some w, some w]) s = .next t ∧
        (t.dir d.val).good = some (headOf w 63 56) ∧ (t.dir d.val).nak = false ∧ (t.dir d.val).fails = 0) ∧
      (∀ w', w' ≠ w → w'.length = w.length → s.f F.TPL_LANE_STAT_DISAGREE d.val 2 < 65535 →
        ∃ t, exec (.voteWindowReceive d [some w, some w, some w']) s = .next t ∧
          (t.dir d.val).good = some (headOf w 63 56) ∧
          t.f F.TPL_LANE_STAT_DISAGREE d.val 2 = s.f F.TPL_LANE_STAT_DISAGREE d.val 2 + 1)) ∧
    (∀ (n : BitVec 8) x p s1 s2, n.toNat < 128 → s.nodeValid 0 n.toNat = true → s.l0Held n.toNat = false →
      (s.bucketOf 0 n.toNat).peak = true → s.buf.qf.hist.length < 64 →
      mgetD s.que.picks (nodeSlice n.toNat) 0 < 40 →
      (s.begin.gateCleared n.toNat).selectPath ((s.begin.gateCleared n.toNat).queueWork n.toNat)
        (s.begin.gateCleared n.toNat).shaped n.toNat = (some x, s1) →
      (s1.pick (nodeSlice n.toNat)).dequeue x.q = (some p, s2) →
      ∃ t, exec (.dequeueSelect n none) s = .next t ∧ mget t.que.flight s2.que.nextFlight = some (n.toNat, p) ∧
        t.buf.qf.queue = s2.buf.qf.queue ++ [s2.que.nextFlight * 4] ∧
        (t.bucketOf 0 n.toNat).p = (s2.bucketOf 0 n.toNat).p - ((s1.accounted n.toNat p : Nat) : Int) * 1000) ∧
    (∀ p (n : BitVec 7) (v : W32), s.writable p .SHP_GALLEY_CTRL n.toNat 0 0 →
      (F.SHP_GALLEY_CTRL_EN.of (v.setWidth 64) = 1 → bits (s.nodeOf 0 n.toNat).2 39 16 ≠ 0) →
      (s.fb F.SHP_GALLEY_CTRL_EN n.toNat = false → F.SHP_GALLEY_CTRL_EN.of (v.setWidth 64) = 1 →
        F.SHP_GALLEY_CTRL_SWITCH.of (v.setWidth 64) = 0 →
        ∃ t, exec (.galleyEnable p n v) s = .next t ∧ t.fb F.SHP_GALLEY_CTRL_EN n.toNat = true ∧
          t.f F.SHP_GALLEY_STATUS_GATES n.toNat = F.SHP_GALLEY_CTRL_GAP_GATES.of (v.setWidth 64) ∧
          t.fb F.SHP_GALLEY_STATUS_IN_GAP n.toNat = true ∧
          t.galley n.toNat = { s.galley n.toNat with running := false, entry := 0, start := match (s.galley n.toNat).start with
            | some x => some x
            | none => (s.galley n.toNat).act.startAt (s.galley n.toNat).active s.tb.total }) ∧
      (F.SHP_GALLEY_CTRL_EN.of (v.setWidth 64) = s.f F.SHP_GALLEY_CTRL_EN n.toNat → F.SHP_GALLEY_CTRL_SWITCH.of (v.setWidth 64) = 1 →
        s.fb F.SHP_GALLEY_STATUS_SWITCH_PENDING n.toNat = false → (s.idleBank n.toNat).valid = true →
        ∃ t, exec (.galleySwitch p n v) s = .next t ∧ t.fb F.SHP_GALLEY_STATUS_SWITCH_PENDING n.toNat = true ∧
          t.galley n.toNat = { s.galley n.toNat with start := some (!(s.galley n.toNat).active, (s.idleBank n.toNat).firstStart
            (if (s.galley n.toNat).running then (s.galley n.toNat).cycleEnd else s.tb.total)) })) ∧
    (∀ (n : BitVec 7) at0, s.fb F.SHP_GALLEY_CTRL_EN n.toNat = true →
      (s.galley n.toNat).start = some ((s.galley n.toNat).active, at0) → at0 ≤ s.tb.total →
      ∃ t, exec (.galleyCycleStart n) s = .next t ∧
        t.galley n.toNat = { s.galley n.toNat with running := true, start := none, cycle := at0, entry := 0 } ∧
        t.f F.SHP_GALLEY_STATUS_GATES n.toNat = ((s.galley n.toNat).act.entry 0).1 ∧
        t.fb F.SHP_GALLEY_STATUS_IN_GAP n.toNat = false ∧
        t.fb F.SHP_GALLEY_STATUS_UNALIGNED n.toNat = !s.fb F.TIM_STATUS_LOCK) ∧
    (∀ (n : BitVec 7) at0, s.fb F.SHP_GALLEY_CTRL_EN n.toNat = true →
      (s.galley n.toNat).start = some (!(s.galley n.toNat).active, at0) → at0 ≤ s.tb.total →
      ∃ t, exec (.galleyCycleStart n) s = .next t ∧ (t.galley n.toNat).active = (!(s.galley n.toNat).active) ∧
        (t.galley n.toNat).cycle = at0 ∧ (t.galley n.toNat).running = true ∧
        t.fb F.SHP_GALLEY_STATUS_SWITCH_PENDING n.toNat = false ∧ t.raised 482 = true) ∧
    (∀ n : BitVec 7, (s.galley n.toNat).start = none → (s.galley n.toNat).running = true →
      (s.galley n.toNat).cycleEnd ≤ s.tb.total →
      ∃ t, exec (.galleyCycleStart n) s = .next t ∧ (t.galley n.toNat).cycle = (s.galley n.toNat).cycleEnd) ∧
    (∀ n : BitVec 7, (s.galley n.toNat).running = true →
      (s.galley n.toNat).cycle + (s.galley n.toNat).act.endOf (s.galley n.toNat).entry ≤ s.tb.total →
      (s.galley n.toNat).entry + 1 < (s.galley n.toNat).act.plan.length →
      ∃ t, exec (.galleyIntervalEnd n) s = .next t ∧
        t.galley n.toNat = { s.galley n.toNat with entry := (s.galley n.toNat).entry + 1 } ∧
        t.f F.SHP_GALLEY_STATUS_GATES n.toNat = ((s.galley n.toNat).act.entry ((s.galley n.toNat).entry + 1)).1)

/-- The fabric: a control cell leaves with the credit messages (R285, R288), once a pica (R25); a live lane sends three cells
and a lane out of use sends idle cells (R276); a lane takes its cells, and an uncorrectable codeword loses them (R277); a
generator grants one credit for each CREDIT_BYTES (R287); ON is repeated (R286); a gap that lasts ends (R290); a complete
frame is stored or waits for buffers (R291), the copy from the lower SRC_EP first where two complete together (R296). The
model's choices, which no clause lays to the spec: the group of a control cell and its TC, the parity, interleave and
scrambler of a lane frame, one pica as the cycle of R296 (logs 35, 67, 100). Completes: dispatch, fabricLaneFrameSend,
fabricLaneFrameReceive, creditGenerate, onRefresh, reassemblyTimeout, reassemblyComplete, reassemblyRetry. -/
def Obligations.FabricCarriesCells : Prop :=
  ∀ (s : State), s.coreRuns = true →
    (∀ ep c g, s.standalone = false → s.que.q = [] → s.fab.voq = [] → s.fab.flows = [] → s.fab.ctl = [(ep, [c])] →
      s.fab.ctlUsed < s.f F.FAB_DISP_CFG_CTRL_MAX → s.fab.matched = false →
      (List.range 40).find? (fun x => s.reaches (ep * 8) x && decide (0 < s.freeSlots x)) = some g →
      ∃ t, exec .dispatch s = .next t ∧ t.fab.ctl = [] ∧ t.fab.ctlUsed = s.fab.ctlUsed + 1 ∧
        mgetD t.fab.out g [] = mgetD s.fab.out g [] ++ [⟨mkCell 2 Config.cellTc.toNat s.epoch4 ep s.myEp 255 0 (beBytes 8 c.word), []⟩] ∧
        mgetD t.fab.slotsUsed g 0 = mgetD s.fab.slotsUsed g 0 + 1 ∧ t.fab.matched = true) ∧
    (s.fab.matched = true → exec .dispatch s = .next s.begin) ∧
    (∀ (l : BitVec 8), s.standalone = false → l.toNat < 160 →
      (s.fabLive l.toNat = true → (∀ c ∈ (mgetD s.fab.out (l.toNat / 4) []).take 3, c.last = []) →
        ∃ t, exec (.fabricLaneFrameSend l) s = .next t ∧
          mgetD t.fab.out (l.toNat / 4) [] = (mgetD s.fab.out (l.toNat / 4) []).drop 3 ∧
          t.out = [.fabTx l.toNat (laneFrame (laneHead l.toNat (mgetD s.fab.cnt l.toNat 0) false)
            ((((mgetD s.fab.out (l.toNat / 4) []).take 3).map (·.bytes)) ++
              List.replicate (3 - ((mgetD s.fab.out (l.toNat / 4) []).take 3).length) s.idleCell))]) ∧
      (s.fabLive l.toNat = false →
        ∃ t, exec (.fabricLaneFrameSend l) s = .next t ∧
          mgetD t.fab.out (l.toNat / 4) [] = mgetD s.fab.out (l.toNat / 4) [] ∧
          t.out = [.fabTx l.toNat (laneFrame (laneHead l.toNat (mgetD s.fab.cnt l.toNat 0) (s.fabRetired l.toNat))
            [s.idleCell, s.idleCell, s.idleCell])])) ∧
    (∀ (l : BitVec 8) fr, s.standalone = false → l.toNat < 160 → (mgetD s.fab.align l.toNat {}).locked = true →
      (fr.bad = 0 → laneHeadOk fr.head = true → s.fabRetired l.toNat = false →
        exec (.fabricLaneFrameReceive l fr) s =
          .next (if bit fr.head.toNat 39 then s.begin.fabFar l.toNat true
            else (fr.cells.take 3).foldl State.fabCell (s.begin.fabFar l.toNat false))) ∧
      (fr.bad ≠ 0 → ∃ t, exec (.fabricLaneFrameReceive l fr) s = .next t ∧ t.fab.ctx = s.fab.ctx ∧ t.fab.done = s.fab.done ∧
        t.fab.req = s.fab.req ∧ t.fab.voq = s.fab.voq)) ∧
    (∀ (n : BitVec 7) q s1 e rest, s.genRuns n.toNat = true → s.creditBytes * 100000 ≤ mgetD s.fab.gen n.toNat 0 →
      s.begin.grantQueue n.toNat = (some q, s1) → mgetD s1.fab.req q [] = e :: rest → mgetD s1.fab.ctl e.src [] = [] →
      ∃ t, exec (.creditGenerate n) s = .next t ∧ mgetD t.fab.req q [] = rest ++ [e] ∧
        mgetD t.fab.ctl e.src [] = [⟨3, e.tc, 1, q, e.voq, s1.pica.num⟩] ∧
        mgetD t.fab.gen n.toNat 0 = mgetD s.fab.gen n.toNat 0 - s.creditBytes * 100000) ∧
    (∀ (q : BitVec 20), (s.voqOf q.toNat).on = true →
      s.f F.FAB_CREDIT_CFG_REFRESH_US * 1000 ≤ (s.pica.num - (s.voqOf q.toNat).lastOn) * 16 →
      ∃ t, exec (.onRefresh q) s = .next t ∧ (t.voqOf q.toNat).lastOn = s.pica.num ∧
        mgetD t.fab.ctl (s.voqEp q.toNat) [] = mgetD s.fab.ctl (s.voqEp q.toNat) [] ++
          [⟨1, s.voqTc q.toNat, 0, bits (s.qDesc q.toNat) 19 0, q.toNat, s.pica.num⟩]) ∧
    (∀ (src : BitVec 11) (tc : BitVec 3) r n c g, mget s.fab.ctx (src.toNat * 8 + tc.toNat) = some r → r.gap = some g →
      r.held = [(n, c)] → s.f F.FAB_REASM_CFG_TIMEOUT_US * 1000 ≤ (s.pica.num - g) * 16 →
      ∃ t r', exec (.reassemblyTimeout src tc) s = .next t ∧ mget t.fab.ctx (src.toNat * 8 + tc.toNat) = some r' ∧
        r'.next = (n + 1) % 2 ^ 24 ∧ r'.held = [] ∧ r'.gap = none ∧
        (r.stream ≠ [] → t.fb F.FAB_STATUS_TIMEOUT = true)) ∧
    (∀ x y, s.fab.done = [x, y] → x.waits = false → y.waits = false → twinCopies x y = true → y.ctx / 8 < x.ctx / 8 →
      exec .reassemblyComplete s = .next (s.begin.takeFab 1 y)) ∧
    (∀ x rest s1, s.fab.done = x :: rest → (∀ y ∈ rest, twinCopies x y = false) →
      (∀ h, s.begin.storeChain false 0 1 x.p.bytes.length = (.chain h, s1) →
        exec (if x.waits then .reassemblyRetry else .reassemblyComplete) s =
          .next (({ s1 with fab := { s1.fab with done := s1.fab.done.eraseIdx 0 } }).placeFab
            { x with p := { x.p with chains := h.toList } })) ∧
      (∀ k, s.begin.storeChain false 0 1 x.p.bytes.length = (.empty k, s1) →
        exec (if x.waits then .reassemblyRetry else .reassemblyComplete) s =
          .next { s1 with fab := { s1.fab with done := s1.fab.done.set 0 { x with waits := true } } }))

/-- What the fabric promises of every state: the matching of a pica uses no more slots of a link group than it has free
(R288); a Doublet frame that passed elimination is a duplicate when it comes again (R293); a cell as one device builds it is
the cell another takes (R280, R281, R285). -/
def Obligations.FabricPromises : Prop :=
  (∀ (s : State) (g : Nat), g < s.groupCount → (s.matching.got.filter fun x => x.2 == g).length ≤ s.freeSlots g) ∧
  (∀ (s : State) (id f : Nat), (s.eliminate id f).1 = none → ((s.eliminate id f).2.eliminate id f).1 = some 0x93) ∧
  (∀ (s : State) (tc epoch src fh seq : Nat) (payload : List Byte), tc < 8 → epoch < 16 → src < 1024 → fh < 256 →
    seq < 2 ^ 24 → payload.length ≤ 240 →
    s.fabCell (mkCell 1 tc epoch s.myEp src fh seq payload) =
      s.cellArrive (src * 8 + tc) epoch seq { payload := payload, fh := fh }) ∧
  (∀ (s : State) (src fh : Nat) (c : Credit), src < 1024 → fh < 256 → c.kind < 4 → c.tc < 8 → c.count < 256 →
    c.dest < 2 ^ 20 → c.voq < 2 ^ 20 →
    s.fabCell (mkCell 2 0 s.epoch4 s.myEp src fh 0 (beBytes 8 c.word)) = s.takeCredit src { c with born := 0 })

/-- The Doublet: hellos are due on live lanes and leave with lane frames, as records do (R309, R310); an accepted hello raises
the link, and data cells are taken in order; unacknowledged cells are sent again; silence drops the link (R310); a snapshot
walks both stores and ends (R312); roles follow ARB_ROLE (R319, R321, R322); the health pin toggles, and the restart after a
fatal fault is given up at the fourth (R302). The model's choices, which no clause lays to the spec: the layout of a record's
body and header, the tail of four records a step, when RED_FATAL.HELD shows (logs 11, 26, 68). Completes: autoRestart,
twinLaneFrameReceive, helloSend, mirrorResendTimeout, twinLinkTimeout, snapshotWalkStep, arbRoleChange, promotion,
arbHealthToggle, twinLaneFrameSend. -/
def Obligations.MembersShareTheWork : Prop :=
  ∀ (s : State), s.mgmt = true →
    (s.doublet = true → s.fb F.RED_STATUS_ARB_ROLE = false → s.principal = false →
      ∃ t, exec (.arbRoleChange true) s = .next t ∧ t.fb F.RED_STATUS_ARB_ROLE = true ∧ t.red.promoting = true) ∧
    (s.doublet = true → s.fb F.RED_STATUS_ARB_ROLE = true → s.principal = true →
      ∃ t, exec (.arbRoleChange false) s = .next t ∧ t.principal = false ∧ t.twin.snap = false ∧
        (∀ st, (t.xFifo st).any XOp.isRemoval = false) ∧ t.fb F.XMT_CTRL_AGE_REMOVE = false) ∧
    (s.red.promoting = true →
      ∃ t, exec (.promotion true) s = .next t ∧ t.principal = true ∧ t.fb F.RED_STATUS_SYNCED = true ∧
        t.fb F.XMT_CTRL_AGE_REMOVE = true ∧ t.raised 104 = true ∧ t.rd .RED_ROLE_PICA 0 0 0 = BitVec.ofNat 64 s.pica.num) ∧
    (s.core = true → s.fatalHeld = false →
      ∃ t, exec (.arbHealthToggle true) s = .next t ∧ t.red.health = (!s.red.health) ∧
        t.out = [.pin .arbHealth (!s.red.health)]) ∧
    (s.fatalHeld = true → s.fb F.RED_FATAL_HELD = false →
      (s.fb F.RED_CTRL_AUTO_RESTART = true → (s.red.fatals.filter fun u => decide (s.tb.up < u + 600)).length < 4 →
        ∃ t, exec .autoRestart s = .next t ∧ t.fatalHeld = false) ∧
      (s.fb F.RED_CTRL_AUTO_RESTART = false ∨ 4 ≤ (s.red.fatals.filter fun u => decide (s.tb.up < u + 600)).length →
        ∃ t, exec .autoRestart s = .next t ∧ t.fatalHeld = true ∧ t.fb F.RED_FATAL_HELD = true)) ∧
    (s.coreRuns = true → s.doublet = true →
      (∃ t, exec .helloSend s = .next t ∧ t.twin.due = [0, 1].filter s.twinLive) ∧
      (∀ l : Fin 2, s.twinLive l.val = true → s.twin.toSend = [] → s.twin.part = none →
        (s.twin.due.contains l.val = true → s.twin.queue = [] →
          ∃ t, exec (.twinLaneFrameSend l) s = .next t ∧ t.twin.due.contains l.val = false ∧
            t.out = [.twinTx l.val (laneFrame (laneHead l.val (mgetD s.twin.cnt l.val 0) false)
              [s.helloCell s.myHello, s.idleCell, s.idleCell])]) ∧
        (∀ r, s.twin.due.contains l.val = false → s.twin.queue = [r] → s.twin.unacked = [] → s.twinUp = true →
          ∃ t, exec (.twinLaneFrameSend l) s = .next t ∧ t.twin.queue = [] ∧
            t.twin.unacked = [(s.twin.txSeq, { payload := recWire r, fh := 0, ends := [r] })] ∧
            t.twin.txSeq = (s.twin.txSeq + 1) % 2 ^ 24 ∧
            t.out = [.twinTx l.val (laneFrame (laneHead l.val (mgetD s.twin.cnt l.val 0) false)
              [s.dataCell s.twin.txSeq { payload := recWire r, fh := 0, ends := [r] }, s.idleCell, s.idleCell])])) ∧
      (∀ (l : Fin 2) (hd : W64) dest src, (mgetD s.twin.align l.val {}).locked = true → s.twinRetired l.val = false →
        s.twin.far.contains l.val = false → bit hd.toNat 39 = false →
        (s.fromPeer dest src = true →
          (∀ h, s.helloOk h = true →
            ∃ t, exec (.twinLaneFrameReceive l ⟨hd, 0, [.hello dest src h, .idle, .idle]⟩) s = .next t ∧ t.twin.peer = some h ∧
              t.twin.lastHello = s.pica.num ∧ t.twinUp = true) ∧
          (∀ recs, s.twinUp = true → s.principal = true →
            ∃ t, exec (.twinLaneFrameReceive l ⟨hd, 0, [.data dest src s.twin.rxNext recs, .idle, .idle]⟩) s = .next t ∧
              t.twin.rxNext = (s.twin.rxNext + 1) % 2 ^ 24 ∧ t.cb = s.cb ∧ t.exm = s.exm) ∧
          (∀ id x v, s.twinUp = true → s.principal = false → s.streamOf id = some x → x.mode = 1 →
            ∃ t, exec (.twinLaneFrameReceive l ⟨hd, 0, [.data dest src s.twin.rxNext [.stream id v], .idle, .idle]⟩) s = .next t ∧
              mget t.cb id = some { x with seq := v } ∧ t.twin.rxNext = (s.twin.rxNext + 1) % 2 ^ 24)) ∧
        (∀ h, s.fromPeer dest src = false ∨ s.helloOk h = false →
          ∃ t, exec (.twinLaneFrameReceive l ⟨hd, 0, [.hello dest src h, .idle, .idle]⟩) s = .next t ∧
            t.twin.peer = s.twin.peer ∧ t.twinUp = s.twinUp)) ∧
      (s.twinUp = true → s.twin.unacked ≠ [] → s.twin.acked + 1250 ≤ s.pica.num →
        ∃ t, exec .mirrorResendTimeout s = .next t ∧ t.twin.toSend = s.twin.unacked ∧ t.twin.acked = s.pica.num) ∧
      (s.twinUp = true → s.twin.lastHello + 6250 ≤ s.pica.num →
        ∃ t, exec .twinLinkTimeout s = .next t ∧ t.twinUp = false ∧ t.raised 99 = true ∧ t.twin.queue = [] ∧ t.twin.peer = none ∧
          (s.principal = false → t.fb F.RED_STATUS_SYNCED = false) ∧
          (s.principal = false → s.fb F.RED_STATUS_ARB_ROLE = true → t.red.promoting = true)) ∧
      (s.twin.snap = true → s.principal = true → s.twinUp = true → s.twin.queue.length ≤ 16000 → s.hbm.poison = [] →
        (¬(walked 0 s.twin.nearPos = true ∧ walked 1 s.twin.farPos = true) → s.begin.farWalkRead.1 = true →
          ∃ t, exec .snapshotWalkStep s = .next t ∧
            t.twin.queue = s.twin.queue ++ (s.walkStore 0 s.twin.nearPos).1 ++ (s.walkStore 1 s.twin.farPos).1 ∧
            t.twin.nearPos = (s.walkStore 0 s.twin.nearPos).2 ∧ t.twin.farPos = (s.walkStore 1 s.twin.farPos).2) ∧
        (walked 0 s.twin.nearPos = true → walked 1 s.twin.farPos = true → s.tailRecs.drop s.twin.tailPos = [] →
          ∃ t, exec .snapshotWalkStep s = .next t ∧ t.twin.snap = false ∧ t.twin.queue = s.twin.queue ++ [.snapEnd] ∧
            t.fb F.RED_STATUS_SYNCING = false)))

/-! ### Resets, start-up and updates (chapters 1, 14 and 17) -/

/-- Each reset reaches the groups the spec gives it and each release starts what the spec says: PORST_N and SYS_RST_N, also
where one falls while the other is low (R40, R410), PERST_N, hot and function level resets, after which no queue, ring or
channel is enabled and an entry in execution runs on (R350, R357, R362), the flush before a CORE reset and what it clears
(R41, R392), the release of the CORE group (R41); a reference that stops or returns is noted (R416), the test port takes an
instruction and the balls while PORST_N is low, and TRST_N low resets it (R407, R419), and a rail out of tolerance ends
defined behaviour while PORST_N is high (R413). Completes: porstNLow, porstNRelease, sysRstNLow, sysRstNRelease, perstNLow,
perstNRelease, pcieHotReset, functionLevelReset, resetFlushDone, coreResetRelease, railOutOfTolerance, referenceClockLoss,
jtagInstruction, pcieLinkUp, referenceClockReturn. -/
def Obligations.ResetsAndReleases : Prop :=
  ∀ (s : State),
    let off := fun (t : State) =>
      (∀ q, q < 64 → t.fb F.HST_WQ_CFG_EN q = false ∧ t.fb F.HST_CQ_CFG_EN q = false ∧
        ((s.wqOf q).exec ≠ none → t.wqOf q = s.wqOf q) ∧
        ((s.wqOf q).exec = none → s.fb F.HST_WQ_STATUS_ENABLED q = true →
          t.wqOf q = {} ∧ t.fb F.HST_WQ_STATUS_ENABLED q = false)) ∧
      (∀ k, k < 16 → t.fb F.DMA_CH_CFG_EN k = false ∧ t.fb F.HST_PUNT_CFG_EN k = false ∧ t.fb F.HST_INJ_CFG_EN k = false) ∧
      t.evt.msix = [] ∧ t.evt.msixEn = false ∧ t.core = s.core ∧ t.mgmt = s.mgmt
    (∀ ns, 100 ≤ ns →
      ∃ t, exec (.porstNLow ns) s = .next t ∧ t.core = false ∧ t.mgmt = false ∧ t.grp.porstLow = true ∧
        t.grp.sysRstLow = s.grp.sysRstLow ∧ t.grp.perstLow = s.grp.perstLow ∧ t.regs = [] ∧
        t.hst = {} ∧ t.cry = {} ∧ t.que = {} ∧ t.hbm = {} ∧ t.boot.flash = s.boot.flash ∧ t.boot.fuses = s.boot.fuses ∧
        t.boot.keyring = s.boot.keyring ∧
        ((s.grp.jtag = .bypass ∨ s.grp.jtag = .idcode) → t.out = [.pin .arbFault true, .pin .arbHealth false, .pin .ppsOut false,
          .pin .todTx false, .pin .xspiReset false]) ∧
        (s.grp.jtag ≠ .bypass → s.grp.jtag ≠ .idcode → t.out = [.scanBalls true])) ∧
    (∀ ns, ns < 100 → exec (.porstNLow ns) s = .next s.begin ∧ exec (.sysRstNLow ns) s = .next s.begin ∧
      exec (.perstNLow ns) s = .next s.begin) ∧
    (∀ tm, s.grp.porstLow = true → s.grp.sysRstLow = false →
      ∃ t, exec (.porstNRelease tm) s = .next t ∧ t.grp.porstLow = false ∧ t.mgmt = true ∧ t.core = false ∧
        t.grp.holds = [.boot] ∧ t.stage = 1 ∧ t.grp.testMode = tm ∧ t.grp.training = (!s.grp.perstLow) ∧
        ((s.grp.jtag = .bypass ∨ s.grp.jtag = .idcode) → t.out = [.pin .xspiReset true]) ∧
        t.f F.MGT_SECURITY_FUSED_SVN = s.boot.fuses.svn % 128) ∧
    (∀ tm, s.grp.porstLow = true → s.grp.sysRstLow = true → s.grp.mgmtUp = false →
      ∃ t, exec (.porstNRelease tm) s = .next t ∧ t.grp.porstLow = false ∧ t.mgmt = false ∧ t.stage = s.stage) ∧
    (∀ ns, 100 ≤ ns → s.grp.porstLow = false →
      ∃ t, exec (.sysRstNLow ns) s = .next t ∧ t.core = false ∧ t.mgmt = false ∧ t.grp.sysRstLow = true ∧ t.hst = {} ∧
        t.que = { members := s.que.members } ∧ t.evt.log = [] ∧ t.evt.msix = s.evt.msix ∧ t.boot.flash = s.boot.flash ∧ t.boot.fuses = s.boot.fuses ∧ t.ret = s.ret) ∧
    (∀ ns, 100 ≤ ns → s.grp.porstLow = true →
      exec (.sysRstNLow ns) s = .next { s.begin with grp := { s.begin.grp with sysRstLow := true } }) ∧
    (s.grp.sysRstLow = true → s.grp.porstLow = false →
      ∃ t, exec .sysRstNRelease s = .next t ∧ t.grp.sysRstLow = false ∧ t.mgmt = true ∧ t.core = false ∧ t.stage = 1) ∧
    (s.grp.sysRstLow = true → s.grp.porstLow = true →
      exec .sysRstNRelease s = .next { s.begin with grp := { s.begin.grp with sysRstLow := false } }) ∧
    (∀ ns, 100 ≤ ns → s.grp.hostUp = true →
      ∃ t, exec (.perstNLow ns) s = .next t ∧ t.grp.perstLow = true ∧ t.grp.hostUp = false ∧ t.grp.linkUp = false ∧ off t) ∧
    (∀ ns, 100 ≤ ns → s.grp.hostUp = false →
      ∃ t, exec (.perstNLow ns) s = .next t ∧ t.grp.perstLow = true ∧ t.grp.hostUp = false ∧ t.regs = s.regs ∧ t.hst = s.hst) ∧
    (s.grp.perstLow = true → s.grp.porstLow = false → s.mgmt = true →
      ∃ t, exec .perstNRelease s = .next t ∧ t.grp.perstLow = false ∧ t.grp.hostUp = true ∧ t.grp.training = true) ∧
    (s.grp.hostUp = true → s.grp.training = true →
      ∃ t, exec .pcieLinkUp s = .next t ∧ t.grp.linkUp = true ∧ t.grp.training = false) ∧
    (s.grp.hostUp = true → s.grp.linkUp = true →
      (∃ t, exec .pcieHotReset s = .next t ∧ t.grp.linkUp = false ∧ t.grp.training = true ∧ off t) ∧
      (∃ t, exec .functionLevelReset s = .next t ∧ t.grp.linkUp = true ∧ off t)) ∧
    (s.mgmt = true → s.core = true → s.grp.flush = true → s.grp.flushMgmt = false →
      ∃ t, exec .resetFlushDone s = .next t ∧ t.core = false ∧ t.mgmt = true ∧ t.grp.flush = false ∧
        t.cnt.inside = s.insidePicas.length ∧ t.que = { members := s.que.members } ∧ t.ppe = {} ∧ t.cry = {} ∧ t.fab = {} ∧ t.ret = s.ret ∧
        ∀ a, coreAddr a = true → (∀ x ∈ coreKept, x.1.addr x.2 0 0 ≠ a) → mget t.regs a = none) ∧
    (s.mgmt = true → s.core = false → s.grp.holds = [] → s.grp.sysRstLow = false → s.grp.porstLow = false →
      ∃ t, exec .coreResetRelease s = .next t ∧ t.core = true ∧ t.fb F.MGT_CTRL_CFG_LOCK = false ∧ t.cnt.inside = 0 ∧
        t.f F.TIM_STATUS_RESET_EPOCH = min F.TIM_STATUS_RESET_EPOCH.max (s.f F.TIM_STATUS_RESET_EPOCH + 1) ∧
        (s.boot.imageRun = true → t.stage = 3)) ∧
    (∀ r, s.grp.refLost.contains r = false →
      ∃ t, exec (.referenceClockLoss r) s = .next t ∧ t.grp.refLost = s.grp.refLost ++ [r] ∧ t.core = s.core) ∧
    (∀ r, ∃ t, exec (.referenceClockReturn r) s = .next t ∧ t.grp.refLost.contains r = false) ∧
    (∀ x, ∃ t, exec (.jtagInstruction x) s = .next t ∧ t.grp.trst = (x == .trst) ∧
      t.grp.jtag = (if x = .trst then .idcode else if x = .other then .bypass else x) ∧
      (x = .idcode → .jtagId 0x10256B4F ∈ t.out) ∧
      (s.grp.porstLow = false → ∀ b, .scanBalls b ∉ t.out) ∧
      (s.grp.porstLow = true → (s.grp.jtag = .bypass ∨ s.grp.jtag = .idcode) →
        (x = .extest ∨ x = .clamp ∨ x = .highz ∨ x = .samplePreload ∨ x = .extestPulse ∨ x = .extestTrain) →
        .scanBalls true ∈ t.out)) ∧
    (s.grp.porstLow = false → exec .railOutOfTolerance s = .fault .railOutOfTolerance) ∧
    (s.grp.porstLow = true → exec .railOutOfTolerance s = .next s.begin)

/-- Start-up and updates: a reference missing stops the ROM, the record's slot is chosen, its digest lets it run or the ROM
halts (R335, R336); a store is taken, loaded and makes the device ready, is refused, or is missing (R338, R339); health ends
Proof with the record and the fuses, and the watchdog takes the device back (R343 to R346); the flash's answer ends the
command that waits (R340). A match loads the sections of the image, mcore0's runtime at its TARGET in management SRAM (R336,
R337), and a store that is refused leaves the mode as it found it (R338). What sections and records hold by the model's
choice, and which copies are tried, no clause lays to the spec (logs 13, 14, 57, 58, 76). Completes: pllLock, imageDigestDone,
storeReadDone, storeApplyResume, proofWatchdogExpiry, healthConfirmed, flashOpDone. -/
def Obligations.StartUpAndUpdates : Prop :=
  ∀ (s : State), s.mgmt = true →
    (s.stage = 1 → s.grp.holds = [.boot] →
      (∃ t, exec (.pllLock false) s = .next t ∧ t.f F.MGT_STATUS_BOOT_ERR = 0x10 ∧ t.stage = 1 ∧ t.grp.holds = [.boot]) ∧
      (∀ r k, s.grp.refLost = [] → s.curRec = some (r, k) → r.proof = false → s.slotPre r.active = 0 →
        ∃ t, exec (.pllLock true) s = .next t ∧ t.stage = 2 ∧ t.grp.holds = [] ∧ t.boot.slot = r.active ∧
          t.boot.running = r)) ∧
    (s.stage = 2 → s.core = true → s.fb F.HBM_STATUS_READY = true → s.grp.testMode = false →
      (∀ b, s.digestOk (slotBase s.boot.slot) = true → s.boot.fuseOwed = none →
        ∃ t, exec (.imageDigestDone b) s = .next t ∧ t.stage = 3 ∧ t.boot.imageRun = true ∧ t.boot.triedStore = [] ∧
          ∀ x, hdrSects (s.fileHdr (slotBase s.boot.slot)) = [x] → x.type = 1 →
            ∀ i, i < x.size → mget t.hst.sram (x.target + i) = some (s.flashByte (slotBase s.boot.slot + x.off + i))) ∧
      (∀ b, s.digestOk (slotBase s.boot.slot) = false → s.slotCheck (1 - s.boot.slot) ≠ 0 →
        ∃ t, exec (.imageDigestDone b) s = .next t ∧ t.stage = 6 ∧ t.f F.MGT_STATUS_BOOT_ERR = 2 ∧
          t.grp.holds.contains .boot = true)) ∧
    (s.stage = 3 → s.core = true → s.grp.flush = false → s.boot.applyWait = false →
      (∀ d : StoreDevice, s.storeTry (s.boot.running.storeActive % 2) = 0 → deviceBad d = false →
        s.fb F.BUF_STATUS_CFG_DONE = false → s.bufCfgOk = true →
        ∃ t, exec (.storeReadDone d []) s = .next t ∧ t.boot.applyWait = true ∧ t.boot.mode = d.mode.toNat ∧
          t.f F.MGT_STATUS_STORE_COPY = s.boot.running.storeActive % 2 ∧ t.buf.building = true ∧
          t.f F.FAB_CTRL_MY_EP = d.myEp.toNat ∧ t.f F.QUE_CTRL_EGQ_BASE = d.egqBase.toNat ∧
          t.fb F.MGT_STATUS_NO_STORE = false) ∧
      (∀ d items, s.storeTry (s.boot.running.storeActive % 2) = 0 → deviceBad d = true →
        ∃ t, exec (.storeReadDone d items) s = .next t ∧ t.boot.loadRefused = true ∧ t.boot.applyWait = false ∧
          t.boot.triedStore = s.boot.triedStore ++ [s.boot.running.storeActive % 2] ∧ t.f F.MGT_STATUS_BOOT_ERR = 0x0B ∧
          t.boot.mode = s.boot.mode ∧ t.grp.flush = true) ∧
      (∀ d items, s.storeTry (s.boot.running.storeActive % 2) ≠ 0 → s.storeTry (1 - s.boot.running.storeActive % 2) ≠ 0 →
        ∃ t, exec (.storeReadDone d items) s = .next t ∧ t.stage = 5 ∧ t.fb F.MGT_STATUS_NO_STORE = true ∧ t.boot.mode = 0)) ∧
    (s.stage = 3 → s.core = true → s.grp.flush = false → s.boot.applyWait = true → s.buf.building = false →
      s.fb F.BUF_STATUS_CFG_DONE = false →
      ∀ items ports, ∃ t, exec (.storeApplyResume items ports) s = .next t ∧ t.f F.MGT_STATUS_BOOT_ERR = 0x0B ∧
        t.boot.applyWait = false ∧ t.grp.flush = true ∧ t.boot.triedStore = s.boot.triedStore ++ [s.f F.MGT_STATUS_STORE_COPY]) ∧
    (s.stage = 3 → s.core = true → s.grp.flush = false → s.boot.applyWait = true → s.loadReady = true →
      s.f F.PRS_BANK_STATUS_PENDING = 0 → s.f F.PPE_BANK_STATUS_PENDING = 0 →
      ((∀ sl, sl < 8 → s.prsCheck sl (1 - s.prsBank sl) = 0) → (∀ sl, sl < 8 → s.ppeCheck sl = 0) →
        (∃ t, exec (.storeApplyResume [] []) s = .next t ∧ t.stage = 4 ∧ t.fb F.MGT_CTRL_CFG_LOCK = true ∧
          t.boot.applyWait = false) ∧
        (∀ p xpn life sc prio sci, ∃ t, exec (.storeApplyResume [.mka p xpn life sc prio sci] []) s = .next t ∧ t.stage = 4 ∧
          mgetD t.mka.ports p.toNat {} = { run := true, xpn := xpn, sakLife := life.toNat, scIdx := sc.toNat, prio := prio.toNat, sci := sci.toNat, mi := Config.freeBytes s.free 12 }) ∧
        (∀ tb res key, s.xEn tb.toNat = false →
          ∃ t, exec (.storeApplyResume [.exact tb res key] []) s = .next t ∧ t.f F.MGT_STATUS_BOOT_ERR = 0x0B ∧
            t.stage = 3 ∧ t.grp.flush = true ∧ t.boot.triedStore = s.boot.triedStore ++ [s.f F.MGT_STATUS_STORE_COPY])) ∧
      (∀ sl, sl < 8 → s.prsCheck sl (1 - s.prsBank sl) ≠ 0 →
        ∃ t, exec (.storeApplyResume [] []) s = .next t ∧ t.f F.MGT_STATUS_BOOT_ERR = 0x0B ∧ t.stage = 3 ∧ t.grp.flush = true)) ∧
    (s.fb F.MGT_STATUS_PROOF = true → s.boot.watchdog = true →
      (∃ t, exec .proofWatchdogExpiry s = .next t ∧ t.mgmt = true ∧ t.core = false ∧ t.stage = 1 ∧
        t.boot.flash = s.boot.flash ∧ t.boot.fuses = s.boot.fuses ∧ t.hst = {}) ∧
      (s.healthy = true →
        ∃ t, exec (.healthConfirmed true) s = .next t ∧ t.fb F.MGT_STATUS_PROOF = false ∧ t.boot.running.proof = false ∧
          t.boot.watchdog = false ∧ t.raised 2 = true ∧
          t.boot.fuses.svn = max s.boot.fuses.svn (s.f F.MGT_SECURITY_IMAGE_SVN)) ∧
      (s.healthy = false → ∀ b, exec (.healthConfirmed b) s = .next s.begin)) ∧
    (∀ q op, s.boot.flashWait = some (q, op) →
      (∃ t, exec (.flashOpDone false) s = .next t ∧ t.boot.flashWait = none ∧ t.updState = 6 ∧ t.f F.MGT_UPDATE_ERR = 0x0E) ∧
      (op = .erase → ∃ t, exec (.flashOpDone true) s = .next t ∧ t.boot.flashWait = none ∧ t.boot.flash = s.boot.flash) ∧
      (∀ off b, op = .block off b → off + 4096 ≠ s.boot.upd.length → off / 0x10000 = 0 →
        ∃ t, exec (.flashOpDone true) s = .next t ∧ t.boot.flashWait = none ∧
          t.boot.upd.blocks = s.boot.upd.blocks ++ [off / 4096] ∧
          ∀ i, i < b.length → t.flashByte (s.boot.upd.target + off + i) = b.getD i 0))

/-! ### Host access (chapter 15, R5 to R9, R38, R39) -/

/-- A host write reaches the register its offset names: a dword a 32-bit register, two dwords a 64-bit one at once (R9); each
command that is one register write is that write. Of the register it changes the bits that their access types let a write
change: RW takes the value, RWL while the lock is clear, W1C clears where the value has a 1, and RO, RC and WO stay; a refused
write changes no field, and a read clears the RC bits (R7). A level too low leaves everything but DENIED as it was (R353); a
write to a die whose part does not run waits in the die's queue, and the seventeenth is discarded (R38). The model's choices:
the high word of a 64-bit register alone takes the low word that stands there (log 9), and offset 0x0104_0020 is TPL_RETIRE
for a write (log 10). Completes: registerWrite, runMove, evtSrcCfgWrite. -/
def Obligations.HostWritesReachTheirRegister : Prop :=
  ∀ (s : State) (p : Path),
    (∀ c r i j k v, hostRow c = some (p, r, i, j, k, v) → s.writable p r i j k → r.has i j k →
      exec c s = .next (s.begin.writeReg p r i j k (v.setWidth 64))) ∧
    (∀ c r i j k v, hostRow c = some (p, r, i, j, k, v) → s.pathUp p = true → s.level p < r.writeLevel →
      s.mustWait (r.addr i j k) = false → r.has i j k → r.block ≠ 0xC0 → r ≠ .PWR_CTRL → exec c s = .next s.begin.denied) ∧
    (∀ r i j k (v : W64), r ≠ .HST_SESS_DATA → r ≠ .TIM_TOD_SEC → r ≠ .DMA_CH_CFG → s.exporterIgnores r i = false →
      let t := s.wr r i j k (s.merged r i j k v)
      s.writeReg p r i j k v = (if s.refuses t r i j k v then s.blockErr r i else s.writeHook t p r i j v) ∧
      (∀ r' i' j' k', r'.addr i' j' k' ≠ r.addr i j k → t.rd r' i' j' k' = s.rd r' i' j' k') ∧
      ∀ n, n < 64 →
        let old := (s.rd r i j k).getLsbD n
        let new := (t.rd r i j k).getLsbD n
        let open_ := s.fb F.MGT_CTRL_CFG_LOCK = false ∧ (r.block = 0x40 → s.fb F.BUF_STATUS_CFG_DONE = false)
        (r.info.w1c.testBit n = false →
          (r.info.rw.testBit n = true → new = v.getLsbD n) ∧
          (r.info.rw.testBit n = false → r.info.rwl.testBit n = true → open_ → new = v.getLsbD n) ∧
          (r.info.rw.testBit n = false → r.info.rwl.testBit n = true → ¬ open_ → new = old) ∧
          (r.info.rw.testBit n = false → r.info.rwl.testBit n = false → new = old)) ∧
        (r.info.w1c.testBit n = true → r.info.rw.testBit n = false → r.info.rwl.testBit n = false →
          new = (old && !v.getLsbD n))) ∧
    (∀ r i j k, r ∉ [Reg.LNE_TX_TS, .EVT_LOG_REC, .CRY_NOTICE, .PPE_PC_SAMPLE, .BUF_LOUPE_REPORT, .BUF_POOL_MIN, .TIM_TOD_NS] →
      (s.readReg p r i j k).1 = s.shown p r i j k ∧
      ∀ n, n < 64 → ((s.readReg p r i j k).2.rd r i j k).getLsbD n =
        ((s.rd r i j k).getLsbD n && !r.info.rc.testBit n)) ∧
    (∀ v, s.pathUp p = true → 1 ≤ s.level p → s.mustWait 0x2000014 = false →
      exec (.runMove p v) s = .next (({ s.begin with bus := { s.bus with
        hold := merase s.bus.hold (busKey p 0x2000010) } }).writeReg p .TRN_MOVE_CTRL 0 0 0
          (v ++ mgetD s.bus.hold (busKey p 0x2000010) ((s.rd .TRN_MOVE_CTRL 0 0 0).setWidth 32)))) ∧
    (∀ (src : BitVec 11) v, 1152 ≤ src.toNat → s.pathUp p = true → exec (.evtSrcCfgWrite p src v) s = .next s.begin) ∧
    (∀ (a v : W32) r i j k, regAt a.toNat true = some (r, i, j, k, false) → a.toNat % 4 = 0 → a.toNat + 4 ≤ 2 ^ 26 →
      s.pathUp p = true → (p = .smbus → r.ringSide = false) → r.readOnly = false →
      (s.mustWait a.toNat = false → r.writeLevel ≤ s.level p → r.info.bits = 32 →
        exec (.registerWrite p .bar0 a true [v]) s = .next (s.begin.writeReg p r i j k (v.setWidth 64))) ∧
      (∀ w : W32, s.mustWait a.toNat = false → r.writeLevel ≤ s.level p → r.info.bits = 64 → a.toNat + 8 ≤ 2 ^ 26 →
        regAt (a.toNat + 4) true = some (r, i, j, k, true) → s.mustWait (a.toNat + 4) = false →
        ∃ h, exec (.registerWrite p .bar0 a true [v, w]) s =
          .next (({ s.begin with bus := { s.bus with hold := h } }).writeReg p r i j k (w ++ v))) ∧
      (s.mustWait a.toNat = true → dieOf a.toNat ≠ .mgmt → (s.dieQ (dieOf a.toNat)).length < 16 →
        ∃ t, exec (.registerWrite p .bar0 a true [v]) s = .next t ∧
          t.dieQ (dieOf a.toNat) = s.dieQ (dieOf a.toNat) ++ [⟨p, true, a.toNat, v⟩] ∧ t.regs = s.regs) ∧
      (s.mustWait a.toNat = true → 16 ≤ (s.dieQ (dieOf a.toNat)).length →
        exec (.registerWrite p .bar0 a true [v]) s = .next s.begin.accessErr))

/-- What host writes start: resets, confirmation and rejection (R302, R342, R347, R363); ports, tables, banks, retirements and
flushes; software events and snapshots; sessions that open on the right response and close (R355 to R357); doorbells and the
end of a queue (R361, R362). The model's choices: RED_FATAL.HELD shows a group that no restart lets go, and goes with the hold
(log 11), and a write of a CFG has its SIZE in range also where it clears EN (R379). Completes: coreReset, mgmtReset,
portEnable, portDisable, prsCommit, tplRetire, ppeCommit, pcFreeze, pcSnapshot, queueFlush, fabLaneRetire, redTwinRetire,
confirm, reject, wqDoorbell, hstWqInval, wqDisable, cqConsume, sessionOpen, sessionRespond, sessionClose, injectDoorbell,
dmaDoorbell, dmaChannelDisable, evtSrcCfgWrite, evtSwSet. -/
def Obligations.HostWritesHaveTheirEffects : Prop :=
  ∀ (s : State) (p : Path),
    (s.writable p .MGT_CTRL 0 0 0 →
      (s.grp.holds = [] → s.core = true →
        (∃ t, exec (.coreReset p) s = .next t ∧ t.grp.flush = true ∧ t.core = true ∧ t.grp.flushMgmt = s.grp.flushMgmt) ∧
        (∃ t, exec (.mgmtReset p) s = .next t ∧ t.grp.flush = true ∧ t.grp.flushMgmt = true)) ∧
      (s.fatalHeld = true →
        ∃ t, exec (.coreReset p) s = .next t ∧ t.fatalHeld = false ∧ t.fb F.RED_FATAL_HELD = false) ∧
      (∃ t, exec (.confirm p) s = .next t ∧ t.boot.confirm = true ∧ t.grp = s.grp) ∧
      (s.fb F.MGT_STATUS_PROOF = true →
        ∃ t, exec (.reject p) s = .next t ∧ t.mgmt = true ∧ t.core = false ∧ t.stage = 1 ∧ t.boot.flash = s.boot.flash) ∧
      (s.fb F.MGT_STATUS_PROOF = false →
        ∃ t, exec (.reject p) s = .next t ∧ t.grp = s.grp ∧ t.boot = s.boot)) ∧
    (∀ (port : BitVec 7) (v : W32), s.writable p .LNE_PORT_CFG (port.toNat / 16) (port.toNat % 16) 0 →
      s.portCfgOk port.toNat (v.setWidth 64) = true →
      (s.portEn port.toNat = false → bit v.toNat 31 = true →
        ∃ t, exec (.portEnable p port v) s = .next t ∧ t.portEn port.toNat = true ∧
          t.portMode port.toNat = v.toNat % 16) ∧
      (s.portEn port.toNat = true → bit v.toNat 31 = false →
        ∃ t, exec (.portDisable p port v) s = .next t ∧ t.portEn port.toNat = false ∧ t.raw port.toNat = 0 ∧
          ∀ l, l < 8 → t.alignOf port.toNat l = {})) ∧
    (∀ (m : W32), s.writable p .PRS_COMMIT 0 0 0 → s.f F.PRS_BANK_STATUS_PENDING = 0 →
      ∃ t, exec (.prsCommit p m) s = .next t ∧ t.f F.PRS_BANK_STATUS_PENDING = m.toNat % 256) ∧
    (∀ (m : W32), s.writable p .PPE_COMMIT 0 0 0 → s.f F.PPE_BANK_STATUS_PENDING = 0 →
      ∃ t, exec (.ppeCommit p m) s = .next t ∧ t.f F.PPE_BANK_STATUS_PENDING = m.toNat % 256 ∧ t.ppe.checking = m.toNat % 256) ∧
    (s.writable p .TPL_RETIRE 0 0 0 → s.lanes 0 = [0, 1, 2] →
      ∃ t, exec (.tplRetire p 1) s = .next t ∧ t.lanes 0 = [1, 2] ∧ t.raised 106 = true) ∧
    (∀ (q : BitVec 20), s.writable p .QUE_FLUSH 0 0 0 → s.fb F.QUE_STATUS_FLUSH_BUSY = false →
      ∃ t l, exec (.queueFlush p (BitVec.ofNat 32 (2 ^ 31 + q.toNat))) s = .next t ∧ t.fb F.QUE_STATUS_FLUSH_BUSY = true ∧
        t.que.flush = some (q.toNat, l) ∧ t.qOf q.toNat = {}) ∧
    (∀ (l : BitVec 8), s.writable p .FAB_LANE_RETIRE 0 0 0 →
      (l.toNat < 160 → ∃ t, exec (.fabLaneRetire p (BitVec.ofNat 32 (2 ^ 31 + l.toNat))) s = .next t ∧
        t.fabRetired l.toNat = true) ∧
      (160 ≤ l.toNat → s.fb F.FAB_STATUS_CFG_ERR = false →
        ∃ t, exec (.fabLaneRetire p (BitVec.ofNat 32 (2 ^ 31 + l.toNat))) s = .next t ∧ t.ret = s.ret ∧
          t.fb F.FAB_STATUS_CFG_ERR = true ∧ t.raised 484 = true)) ∧
    (∀ (l : Fin 2), s.writable p .RED_TWIN_RETIRE 0 0 0 →
      ∃ t, exec (.redTwinRetire p (BitVec.ofNat 32 (2 ^ 31 + l.val))) s = .next t ∧ t.twinRetired l.val = true) ∧
    (∀ (n : BitVec 10), s.writable p .EVT_SW_SET 0 0 0 → 512 ≤ n.toNat →
      ∃ t, exec (.evtSwSet p (BitVec.ofNat 32 (2 ^ 31 + n.toNat))) s = .next t ∧ t.raised n.toNat = true) ∧
    (∀ (n : BitVec 10) (v : W32), s.writable p .EVT_SRC_CFG n.toNat 0 0 →
      ∃ t, exec (.evtSrcCfgWrite p (n.setWidth 11) v) s = .next t ∧ t.f F.EVT_SRC_CFG_VECTOR n.toNat = v.toNat % 64 ∧
        t.fb F.EVT_SRC_CFG_EN n.toNat = bit v.toNat 31) ∧
    (∀ v : W32, s.writable p .PPE_PC_GLOBAL 0 0 0 → bit v.toNat 30 = true →
      (∃ t, exec (.pcSnapshot p v) s = .next t ∧ t.ppe.snapAsk = true ∧ t.fb F.PPE_PC_GLOBAL_SNAP_DONE = false) ∧
      (∃ t, exec (.pcFreeze p v) s = .next t ∧ t.ppe.freezeAsk = some (bit v.toNat 31))) ∧
    (s.writable p .HST_SESS_CMD 0 0 0 → p ≠ .fw →
      (∀ admin, (s.sess p).state ≠ 4 →
        ∃ t, exec (.sessionOpen p admin) s = .next t ∧ (t.sess p).state = 1 ∧ (t.sess p).asked = (if admin then 1 else 0) ∧
          t.level p = 0) ∧
      (∀ admin, (s.sess p).state = 4 → ∃ t, exec (.sessionOpen p admin) s = .next t ∧ t.sess p = s.sess p) ∧
      (∀ key, (s.sess p).state = 1 → (s.sess p).asked ≤ 1 → s.levelKey (s.sess p).asked = some key →
        (ofW32s (s.sess p).data = s.sessAnswer (s.sess p) key →
          ∃ t, exec (.sessionRespond p) s = .next t ∧ t.level p = (s.sess p).asked + 1 ∧ (t.sess p).fails = 0) ∧
        (ofW32s (s.sess p).data ≠ s.sessAnswer (s.sess p) key →
          ∃ t, exec (.sessionRespond p) s = .next t ∧ t.level p = 0 ∧ (t.sess p).state = 4 ∧
            (t.sess p).fails = min 255 ((s.sess p).fails + 1))) ∧
      ((s.sess p).state ≠ 4 → ∃ t, exec (.sessionClose p) s = .next t ∧ (t.sess p).state = 0 ∧ t.level p = 0)) ∧
    (∀ (q : BitVec 6) (v : W32), p ≠ .smbus →
      (s.writable p .HST_WQ_PI q.toNat 0 0 →
        ∃ t, exec (.wqDoorbell p q v) s = .next t ∧ t.f F.HST_WQ_PI_INDEX q.toNat = v.toNat ∧ (t.wqOf q.toNat).stop = none) ∧
      (s.writable p .HST_CQ_CI q.toNat 0 0 →
        ∃ t, exec (.cqConsume p q v) s = .next t ∧ t.f F.HST_CQ_CI_INDEX q.toNat = v.toNat) ∧
      (s.writable p .HST_WQ_INVAL q.toNat 0 0 →
        ∃ t, exec (.hstWqInval p q v) s = .next t ∧ (t.wqOf q.toNat).stop = some v.toNat) ∧
      (s.writable p .HST_WQ_CFG q.toNat 0 0 → s.fb F.HST_WQ_CFG_EN q.toNat = true → s.fb F.HST_WQ_STATUS_ENABLED q.toNat = true →
        (s.wqOf q.toNat).exec = none → bit v.toNat 31 = false → 7 ≤ F.HST_WQ_CFG_SIZE.of (v.setWidth 64) →
        F.HST_WQ_CFG_SIZE.of (v.setWidth 64) ≤ 17 →
        ∃ t, exec (.wqDisable p q v) s = .next t ∧ t.fb F.HST_WQ_CFG_EN q.toNat = false ∧
          t.fb F.HST_WQ_STATUS_ENABLED q.toNat = false ∧ t.wqOf q.toNat = {})) ∧
    (∀ (k : BitVec 4) (v : W32), p ≠ .smbus →
      (s.writable p .HST_INJ_PI k.toNat 0 0 →
        ∃ t, exec (.injectDoorbell p k v) s = .next t ∧ t.f F.HST_INJ_PI_INDEX k.toNat = v.toNat) ∧
      (s.writable p .DMA_CH_PI k.toNat 0 0 → s.exporterOwns k.toNat = false →
        ∃ t, exec (.dmaDoorbell p k v) s = .next t ∧ t.f F.DMA_CH_PI_INDEX k.toNat = v.toNat) ∧
      (s.writable p .DMA_CH_CFG k.toNat 0 0 → bit v.toNat 31 = false → 4 ≤ F.DMA_CH_CFG_SIZE.of (v.setWidth 64) →
        F.DMA_CH_CFG_SIZE.of (v.setWidth 64) ≤ 12 →
        ∃ t, exec (.dmaChannelDisable p k v) s = .next t ∧ t.fb F.DMA_CH_CFG_EN k.toNat = false))

/-- What host reads return and do: the time words of one moment (R53), the oldest entry of each FIFO, which leaves it (R7),
both words of a 64-bit register from one moment (R9); an access that waited executes in turn (R39); SMBus reads and times out
(R377); BAR2 reads its regions and writes the management region, at the levels of Table 15-4 (R226, R353, R375); a challenge
and a lock end (R355, R356). The model's choices: a BAR2 access waits for its burst like any request (log 41), and an
administrator's write outside the management region is ignored without DENIED (R226). Completes: rcFieldRead, lowWordRead,
heldAccessExecute, timTodNsRead, lneTxTsRead, cryNoticeRead, pcSampleRead, loupeReportRead, challengeTimeout,
sessionLockExpiry, bar2Read, bar2Write, smbusAddressSet, smbusDwordAccess, smbusStretchTimeout, evtLogRecRead. -/
def Obligations.HostReadsAnswer : Prop :=
  ∀ (s : State) (p : Path),
    (s.readable p .TIM_TOD_NS 0 0 0 →
      ∃ t, exec (.timTodNsRead p) s = .next t ∧ t.out = [.readData p [BitVec.ofNat 32 s.tb.nsNow]] ∧ t.regs = s.regs ∧
        mget t.bus.latch (busKey p 0x3200020) = some (BitVec.ofNat 32 (s.tb.secNow % 2 ^ 32)) ∧
        mget t.bus.latch (busKey p 0x3200024) = some (BitVec.ofNat 32 (s.tb.secNow / 2 ^ 32))) ∧
    (∀ (n : BitVec 7) x rest, s.readable p .LNE_TX_TS (n.toNat / 16) (n.toNat % 16) 0 → mgetD s.lne.txTs n.toNat [] = x :: rest →
      ∃ t, exec (.lneTxTsRead p n) s = .next t ∧ mgetD t.lne.txTs n.toNat [] = rest ∧
        t.out = [.readData p [BitVec.ofNat 32 (2 ^ 31 + (rest.length + 1) * 2 ^ 16 + x.tag % 2 ^ 16)]]) ∧
    (∀ k i rest, s.readable p .CRY_NOTICE 0 0 0 → s.cry.notices = (k, i) :: rest →
      ∃ t, exec (.cryNoticeRead p) s = .next t ∧ t.cry.notices = rest ∧
        t.out = [.readData p [BitVec.ofNat 32 (2 ^ 31 + k * 2 ^ 29 + i)]]) ∧
    (∀ (n : BitVec 5) x rest, s.readable p .PPE_PC_SAMPLE (n.toNat / 4) (n.toNat % 4) 0 →
      mgetD s.ppe.samples n.toNat [] = x :: rest →
      ∃ t, exec (.pcSampleRead p n) s = .next t ∧ mgetD t.ppe.samples n.toNat [] = rest ∧
        t.out = [.readData p [0x80000000]]) ∧
    (∀ x rest, s.readable p .BUF_LOUPE_REPORT 0 0 0 → s.buf.loupe.reports = x :: rest →
      ∃ t, exec (.loupeReportRead p) s = .next t ∧ t.buf.loupe.reports = rest ∧
        t.out = [.readData p [BitVec.ofNat 32 (2 ^ 31 + x.kind * 2 ^ 28 + x.handle)]]) ∧
    (∀ x rest, s.readable p .EVT_LOG_REC 0 0 0 → s.evt.log = x :: rest →
      ∃ t, exec (.evtLogRecRead p) s = .next t ∧ t.evt.log = rest ∧
        t.out = [.readData p [BitVec.ofNat 32 (2 ^ 31 + x.source)]]) ∧
    (s.readable p .TIM_PICA_NUM 0 0 0 →
      ∃ t, exec (.lowWordRead p 0x3200010 true 2) s = .next t ∧
        t.out = [.readData p [BitVec.ofNat 32 s.pica.num, BitVec.ofNat 32 (s.pica.num % 2 ^ 64 / 2 ^ 32)]]) ∧
    (s.readable p .FAB_RX_DROPS 0 0 0 →
      ∃ t, exec (.rcFieldRead p (BitVec.ofNat 32 (Reg.addr .FAB_RX_DROPS 0 0 0)) true 1) s = .next t ∧
        t.out = [.readData p [(s.rd .FAB_RX_DROPS 0 0 0).setWidth 32]] ∧
        t.rd .FAB_RX_DROPS 0 0 0 = s.rd .FAB_RX_DROPS 0 0 0 &&& ~~~(BitVec.ofNat 64 (Reg.info .FAB_RX_DROPS).rc)) ∧
    (∀ d h rest, s.mgmt = true → s.dieQ d = h :: rest → s.addrLive h.addr = true →
      (h.write = true → h.path = .pcie →
        exec (.heldAccessExecute d) s = .next ((s.begin.setDieQ d rest).writeWord .pcie h.addr h.data)) ∧
      (h.write = false → h.path = .pcie →
        ∃ t, exec (.heldAccessExecute d) s = .next t ∧ t.dieQ d = rest ∧
          t.out = [.lateData .pcie [((s.begin.setDieQ d rest).readWord .pcie h.addr).1]])) ∧
    (s.mgmt = true →
      (∀ a, ∃ t, exec (.smbusAddressSet a true) s = .next t ∧ t.bus.smbAddr = a) ∧
      (∀ a, ∃ t, exec (.smbusAddressSet a false) s = .next t ∧ t.bus = s.bus ∧ t.out = [.smbusNack]) ∧
      (s.bus.smbAddr = 0x3040000 → s.bus.smbTimedOut = false →
        ∃ t, exec (.smbusDwordAccess none true) s = .next t ∧ t.out = [.readData .smbus [(s.rd .HST_ID 0 0 0).setWidth 32]]) ∧
      (s.bus.smbTimedOut = true →
        ∃ t, exec (.smbusDwordAccess none true) s = .next t ∧ t.bus.smbTimedOut = false ∧
          t.out = [.readData .smbus [0xFFFFFFFF]]) ∧
      (s.bus.smbWait = true →
        ∃ t, exec .smbusStretchTimeout s = .next t ∧ t.bus.smbWait = false ∧ t.bus.smbTimedOut = true) ∧
      (p ≠ .fw → (s.sess p).state = 1 →
        ∃ t, exec (.challengeTimeout p) s = .next t ∧ (t.sess p).state = 4 ∧ (t.sess p).fails = min 255 ((s.sess p).fails + 1)) ∧
      (p ≠ .fw → (s.sess p).state = 4 →
        ∃ t, exec (.sessionLockExpiry p) s = .next t ∧ (t.sess p).state = 0 ∧ (t.sess p).fails = (s.sess p).fails)) ∧
    (∀ (off : BitVec 30) (n : Nat), s.pathUp .pcie = true → s.boot.imageRun = true → s.coreRuns = true →
      bar2Level (s.bar2LA off.toNat) ≤ s.level .pcie →
      (s.hbm.poison = [] → s.inSpill (s.bar2LA off.toNat) = false →
        (s.begin.hbmAsk 5 true [(s.bar2LA off.toNat, n)]).1 = true →
        ∃ t, exec (.bar2Read off n false) s = .next t ∧ t.out = [.bar2Data (s.hbmRead (s.bar2LA off.toNat) n)] ∧
          t.hbm.mgmt = s.hbm.mgmt) ∧
      (s.inSpill (s.bar2LA off.toNat) = false → (s.begin.hbmAsk 5 true [(s.bar2LA off.toNat, n)]).1 = true →
        bar2Reads (s.bar2LA off.toNat) = true →
        ∃ t, exec (.bar2Read off n true) s = .next t ∧ t.out = [.poisoned .pcie] ∧
          t.fb F.HST_STATUS_ACCESS_ERR = true) ∧
      (∀ bad, s.inSpill (s.bar2LA off.toNat) = false → (s.begin.hbmAsk 5 true [(s.bar2LA off.toNat, n)]).1 = true →
        0xA4A00000 ≤ s.bar2LA off.toNat → s.bar2LA off.toNat + n < 0xC0000000 →
        ∃ t, exec (.bar2Read off n bad) s = .next t ∧ t.out = [.bar2Data (s.hbmRead (s.bar2LA off.toNat) n)] ∧
          t.fb F.HST_STATUS_ACCESS_ERR = s.fb F.HST_STATUS_ACCESS_ERR) ∧
      (∀ data : List Byte, s.bar2LA off.toNat + data.length ≤ 0x80000000 → s.bar2LA off.toNat < 0x80000000 →
        (s.begin.hbmAsk 5 false [(s.bar2LA off.toNat, data.length)]).1 = true →
        ∃ t, exec (.bar2Write off data) s = .next t ∧
          ∀ i, i < data.length → mgetD t.hbm.mgmt (s.bar2LA off.toNat + i) 0 = data.getD i 0) ∧
      (∀ data, 0x80000000 ≤ s.bar2LA off.toNat → 2 ≤ s.level .pcie → exec (.bar2Write off data) s = .next s.begin)) ∧
    (∀ (off : BitVec 30) (n : Nat), s.pathUp .pcie = true →
      (∀ bad, s.level .pcie < bar2Level (s.bar2LA off.toNat) ∨ s.inSpill (s.bar2LA off.toNat) = true →
        ∃ t, exec (.bar2Read off n bad) s = .next t ∧ t.out = [.bar2Data (List.replicate n 0)] ∧ t.hbm = s.hbm ∧
          t.fb F.HST_STATUS_DENIED = true ∧ t.raised 32 = true) ∧
      (∀ data, s.level .pcie < (if staging (s.bar2LA off.toNat) then 1 else 2) →
        ∃ t, exec (.bar2Write off data) s = .next t ∧ t.hbm = s.hbm ∧ t.fb F.HST_STATUS_DENIED = true))

/-! ### Work queues and the services of the management die (chapter 15) -/

/-- A work queue's command has its effect and its entry completes: CI passes it, and its completion is posted where it asks or
failed (R358, R360). Without the level it is DENIED, and a CORE block out of reach is NOT_READY, with no effect (R366). A
command for TD behind others waits in the maintenance port's FIFO, and acts at its turn (R162, R163). The model's choices:
what waits and what comes again (log 42), byte strings in words (log 43), the order of a table's checks (log 59), what is
mirrored (log 61), the check code of a REFUSED completion is a free value (log 62), and where the die's operations wait (log
91). Completes: nop, fence, fenceWait, tblWrite, tblRead, emInsert, emUpdate, emDelete, emRead, tdAdd, tdChange, tdDelete,
rowWrite, rowResult, rowDelete, rowRead, saInstall, saUpdate, saDelete, saRead, cakLoad, loadArm, bfdSet, bfdDel, imgBegin,
imgBlock, imgEnd, imgStart, keySet. -/
def Obligations.CommandsComplete : Prop :=
  ∀ (s : State) (q : BitVec 6) (e : WqEntry) (rest : List WqEntry),
    (∀ (u : State) (st r d : Nat), (u.wqOf q.toNat).exec = some e → u.fb F.HST_WQ_CFG_EN q.toNat = true → u.hst.halt = none →
      u.fb F.HST_CQ_CFG_EN (u.f F.HST_WQ_CFG_CQ q.toNat) = true →
      (u.finish q.toNat st r d).f F.HST_WQ_CI_INDEX q.toNat = e.next ∧ ((u.finish q.toNat st r d).wqOf q.toNat).exec = none ∧
      ((u.finish q.toNat st r d).wqOf q.toNat).cache = (u.wqOf q.toNat).cache ∧
      (st ≠ 0 ∨ bit e.head 47 = true → ∃ x, (st ≠ 0x0F → x = d) ∧
        Out.hostWrite (u.f F.HST_CQ_ADDR_ADDR (u.f F.HST_WQ_CFG_CQ q.toNat) * 4096 +
            u.f F.HST_CQ_PI_INDEX (u.f F.HST_WQ_CFG_CQ q.toNat) % 2 ^ u.f F.HST_CQ_CFG_SIZE (u.f F.HST_WQ_CFG_CQ q.toNat) * 32)
          ([st * 2 ^ 40 + e.op * 2 ^ 32 + q.toNat * 2 ^ 16 + e.head % 65536, r, x, 0].flatMap (leBytes 8))
        ∈ (u.finish q.toNat st r d).out)) ∧
    (s.cmdStarts q 0x00 e rest 0 false → exec (.nop q) s = .next ((s.begun q e rest).finish q.toNat 0 0 0)) ∧
    (s.cmdStarts q 0x01 e rest 1 true →
      (∀ g u, (s.begun q e rest).fenceIssue = (some g, u) → exec (.fence q) s = .next (u.finish q.toNat 0 g 0)) ∧
      (127 ≤ s.exm.fences.length → exec (.fence q) s = .next ((s.begun q e rest).finish q.toNat 0x0A 0 0))) ∧
    (s.runsEntry q 0x01 e rest → s.wqLevel q = 0 → exec (.fence q) s = .next ((s.begun q e rest).finish q.toNat 1 0 0)) ∧
    (s.runsEntry q 0x01 e rest → 1 ≤ s.wqLevel q → s.coreLive = false →
      exec (.fence q) s = .next ((s.begun q e rest).finish q.toNat 0x12 0 0)) ∧
    (s.cmdStarts q 0x02 e rest 1 true →
      (s.fenceDone (e.w 1 % 256) = true → exec (.fenceWait q) s = .next ((s.begun q e rest).finish q.toNat 0 0 0)) ∧
      (s.fenceDone (e.w 1 % 256) = false → exec (.fenceWait q) s = .next (s.begun q e rest))) ∧
    (∀ x st n u a, s.cmdStarts q 0x08 e rest (writeLevel e.target) true → targetReady e.target (s.begun q e rest) = true →
      targetOf e.target = some x → bits (e.w 1) 47 32 * x.bytes ≤ 32 * (e.len - 1) →
      (s.begun q e rest).tblAsked e.target (bits (e.w 1) 31 0) (min (bits (e.w 1) 47 32) (x.count - bits (e.w 1) 31 0)) false a →
      State.tblPuts e.target e.slices (cutEntries x.bytes (bits (e.w 1) 47 32) (wordsLE (e.words.drop 4))) (bits (e.w 1) 31 0) 0
        a = (st, n, u) →
      exec (.tblWrite q) s = .next (u.finish q.toNat st n 0)) ∧
    (s.cmdStarts q 0x09 e rest 1 true → e.target = 0x14 → bits (e.w 1) 47 32 = 1 → bits (e.w 1) 31 0 < 1024 →
      exec (.tblRead q true) s = .next (((s.begun q e rest).emit
        (.hostWrite (e.w 2) (leBytes 8 (mgetD s.fab.reach (bits (e.w 1) 31 0) (2 ^ 40 - 1))))).finish q.toNat 0 1 0) ∧
      exec (.tblRead q false) s = .next ((s.begun q e rest).finish q.toNat 0x10 0 0)) ∧
    (∀ x b a, s.cmdStarts q 0x09 e rest 1 true → targetReady e.target (s.begun q e rest) = true → targetOf e.target = some x →
      (x.slices = true → (maskSlices e.slices).length = 1) → bits (e.w 1) 31 0 + bits (e.w 1) 47 32 ≤ x.count →
      (s.begun q e rest).tblAsked e.target (bits (e.w 1) 31 0) (bits (e.w 1) 47 32) true a → s.hbm.poison = [] →
      ((List.range (bits (e.w 1) 47 32)).flatMap fun j => entryBytes x.bytes (s.tblGet e.target
        ((maskSlices e.slices).headD 0) (bits (e.w 1) 31 0 + j))) = b → b ≠ [] →
      exec (.tblRead q true) s =
        .next ((a.emit (.hostWrite (e.w 2) b)).finish q.toNat 0 (bits (e.w 1) 47 32) 0)) ∧
    (∀ a, s.fb F.XMT_STATUS_CLEAR_DONE = true → s.xEn e.xTable = true →
      (s.begun q e rest).emActs e.xTable (e.num 2 3) a →
      (∀ r u, s.cmdStarts q 0x10 e rest 1 true → e.xKind ≠ 3 →
        a.xInsert (a.xFresh e.xTable e.xKind (bits (e.w 1) 31 0) (s.xKey e.xTable (e.num 2 3))) = (r, u) →
        exec (.emInsert q) s = .next (u.finish q.toNat r.status 0 0)) ∧
      (∀ x y, s.cmdStarts q 0x11 e rest 1 true → e.xKind ≠ 3 → s.xFind e.xTable (s.xKey e.xTable (e.num 2 3)) = some x →
        s.xAt x = some y →
        exec (.emUpdate q) s = .next ((a.xPut x (entUpdate y e.xKind (bits (e.w 1) 47 32)
          (bits (e.w 1) 31 0))).finish q.toNat 0 0 0)) ∧
      (∀ x, s.cmdStarts q 0x12 e rest 1 true → s.xFind e.xTable (s.xKey e.xTable (e.num 2 3)) = some x →
        exec (.emDelete q) s = .next ((a.xClear e.xTable x).finish q.toNat 0 0 0)) ∧
      (∀ x y, s.cmdStarts q 0x13 e rest 1 true → s.xFind e.xTable (s.xKey e.xTable (e.num 2 3)) = some x → s.xAt x = some y →
        exec (.emRead q) s = .next (a.finish q.toNat 0 (xRow (s.xStore e.xTable == 1) y 0) 0))) ∧
    (∀ c op o l, (c, op) ∈ [(Instr.emInsert q, 0x10), (.emUpdate q, 0x11), (.emDelete q, 0x12), (.emRead q, 0x13)] →
      s.cmdStarts q op e rest 1 true → s.fb F.XMT_STATUS_CLEAR_DONE = true → s.xEn e.xTable = true → (op ≤ 0x11 → e.xKind ≠ 3) →
      s.xFifo (s.xStore e.xTable) = o :: l → (∀ r, o ≠ .mirror r) → s.xFifo (1 - s.xStore e.xTable) = [] →
      .command q.toNat ∉ o :: l → l.length < 1023 →
      ∃ t, exec c s = .next t ∧ t.xFifo (s.xStore e.xTable) = o :: l ++ [.command q.toNat] ∧
        (t.wqOf q.toNat).exec = some e) ∧
    (s.fb F.TRN_STATUS_CLEAR_DONE = true → s.fb F.TRN_TBL_CFG_EN e.tdTable = true → s.fb F.TRN_TBL_CFG_MODE e.tdTable = false →
      s.trn.fifo = [] → (s.fb F.TRN_TBL_CFG_KIND e.tdTable = true ∨ e.tdPrio ≤ 80 * tdRows (s.f F.TRN_TBL_CFG_WIDTH e.tdTable)) →
      (∀ r u, s.cmdStarts q 0x18 e rest 1 true →
        (s.begun q e rest).tdPlace e.tdTable e.tdPrio (e.num 3 5 % 2 ^ (80 * tdRows (s.f F.TRN_TBL_CFG_WIDTH e.tdTable)))
          (e.num 8 5 % 2 ^ (80 * tdRows (s.f F.TRN_TBL_CFG_WIDTH e.tdTable))) (e.w 2) = some (r, u) →
        exec (.tdAdd q) s = .next (u.finish q.toNat 0 r 0)) ∧
      (∀ r, (s.begun q e rest).tdFind e.tdTable e.tdPrio (e.num 3 5 % 2 ^ (80 * tdRows (s.f F.TRN_TBL_CFG_WIDTH e.tdTable)))
          (e.num 8 5 % 2 ^ (80 * tdRows (s.f F.TRN_TBL_CFG_WIDTH e.tdTable))) = some r →
        (s.cmdStarts q 0x19 e rest 1 true →
          exec (.tdChange q) s =
            .next (((s.begun q e rest).setRow r { s.row r with result := e.w 2 }).finish q.toNat 0 r 0)) ∧
        (s.cmdStarts q 0x1A e rest 1 true →
          exec (.tdDelete q) s = .next (((s.begun q e rest).tdClear r).finish q.toNat 0 r 0)))) ∧
    (∀ t w, s.fb F.TRN_STATUS_CLEAR_DONE = true → s.trn.fifo = [] → s.rowTarget e.rWidth e.row = .ok (t, w) →
      (∀ st u, s.cmdStarts q 0x1C e rest 1 true → (s.begun q e rest).rowWrite e.rWidth e.row (fun i => e.w (2 + i)) = (st, u) →
        exec (.rowWrite q) s = .next (u.finish q.toNat st 0 0)) ∧
      (s.cmdStarts q 0x1D e rest 1 true → exec (.rowResult q) s =
        .next (((s.begun q e rest).setRow e.row { s.row e.row with result := e.w 2 }).finish q.toNat 0 0 0)) ∧
      (s.cmdStarts q 0x1E e rest 1 true → (s.row e.row).valid = true →
        exec (.rowDelete q) s = .next (((s.begun q e rest).tdClear e.row).finish q.toNat 0 0 0)) ∧
      (s.cmdStarts q 0x1F e rest 1 true → exec (.rowRead q true) s =
        .next (((s.begun q e rest).emit (.hostWrite (e.w 2) ((s.rowRecord w e.row).flatMap (leBytes 8)))).finish q.toNat 0 0 0))) ∧
    (∀ c op, (c, op) ∈ [(Instr.tdAdd q, 0x18), (.tdChange q, 0x19), (.tdDelete q, 0x1A), (.rowWrite q, 0x1C),
        (.rowResult q, 0x1D), (.rowDelete q, 0x1E), (.rowRead q true, 0x1F)] →
      s.cmdStarts q op e rest 1 true → s.fb F.TRN_STATUS_CLEAR_DONE = true → s.trn.fifo ≠ [] →
      (∀ rows, .command q.toNat rows ∉ s.trn.fifo) →
      ∃ t, exec c s = .next t ∧ (t.wqOf q.toNat).exec = some e ∧ t.trn.rows = s.trn.rows ∧
        (s.trn.fifo.length < 1024 → ∃ rows, t.trn.fifo = s.trn.fifo ++ [.command q.toNat rows]) ∧
        (1024 ≤ s.trn.fifo.length → t.trn = s.trn)) ∧
    (∀ rows l t w, s.mgmt = true → (s.wqOf q.toNat).exec = some e → e.op = 0x1E → 1 ≤ (s.wqOf q.toNat).level →
      s.coreRuns = true → s.f F.PWR_STATUS_DEVICE ≠ 3 → s.fb F.TRN_STATUS_CLEAR_DONE = true →
      s.trn.fifo = .command q.toNat rows :: l → s.rowTarget e.rWidth e.row = .ok (t, w) → (s.row e.row).valid = true →
      exec (.rowDelete q) s = .next (((s.begin.setTdFifo l).tdClear e.row).finish q.toNat 0 0 0)) ∧
    (∀ a, s.fb F.CRY_STATUS_ZERO_DONE = true → (s.begun q e rest).hbmAsk 3 false (saSpan e.saIdx) = (true, a) →
      (∀ k u, s.cmdStarts q 0x20 e rest 2 true → Std.aesUnwrap s.kek (e.bytes 18 7) = some k →
        a.saInstall e.saIdx (saOfWords (fun i => e.w (2 + i)) (slice (fit 48 k) 0 32)
          (beNat (slice (fit 48 k) 32 12))) = some u →
        exec (.saInstall q) s = .next (u.finish q.toNat 0 0 0)) ∧
      (s.cmdStarts q 0x20 e rest 2 true → Std.aesUnwrap s.kek (e.bytes 18 7) = none →
        exec (.saInstall q) s = .next (a.finish q.toNat 0x0B 0 0)) ∧
      (∀ y, s.cmdStarts q 0x21 e rest 2 true → (s.sa e.saIdx).valid = true → y = SaEntry.reserve { s.sa e.saIdx with
          nextValid := bit (e.w 2) 63, pin := bit (e.w 2) 62, nextSa := bits (e.w 2) 49 32, limit := e.w 3 } →
        ((s.sa e.saIdx).pinned = true ∨ y.pinned = false ∨ s.pinRoom e.saIdx = true →
          exec (.saUpdate q) s = .next ((a.saWrite e.saIdx y).finish q.toNat 0 0 0)) ∧
        ((s.sa e.saIdx).pinned = false → y.pinned = true → s.pinRoom e.saIdx = false →
          exec (.saUpdate q) s = .next (a.finish q.toNat 0x0F 0 0))) ∧
      (s.cmdStarts q 0x22 e rest 2 true →
        exec (.saDelete q) s = .next ((a.saDelete e.saIdx).finish q.toNat 0 0 0))) ∧
    (∀ a, s.cmdStarts q 0x23 e rest 1 true → s.fb F.CRY_STATUS_ZERO_DONE = true → s.hbm.poison = [] →
      (s.begun q e rest).hbmAsk 3 true (saSpan e.saIdx) = (true, a) →
      exec (.saRead q true) s = .next ((a.emit (.hostWrite (e.w 2) ((List.range 32).flatMap fun i =>
        leBytes 8 ((s.sa e.saIdx).word i)))).finish q.toNat 0 0 0)) ∧
    (∀ k, s.cmdStarts q 0x25 e rest 2 false → 1 ≤ bits (e.w 1) 13 8 → bits (e.w 1) 13 8 ≤ 32 → bit (e.w 1) 7 = false →
      Std.aesUnwrap s.kek (e.bytes 6 5) = some k →
      exec (.cakLoad q) s = .next (({ s.begun q e rest with mka := { s.mka with caks :=
        (mset s.mka.caks (bits (e.w 1) 6 0) ((e.bytes 2 4).take (bits (e.w 1) 13 8), fit 32 k)) } }).finish q.toNat 0 0 0)) ∧
    (∀ k r, s.cmdStarts q 0x25 e rest 2 false → 1 ≤ bits (e.w 1) 13 8 → bits (e.w 1) 13 8 ≤ 32 → bit (e.w 1) 7 = true →
      Std.aesUnwrap s.kek (e.bytes 6 5) = some k →
      s.boot.keyring.store ⟨bits (e.w 1) 6 0, (e.bytes 2 4).take (bits (e.w 1) 13 8),
        Std.aesWrap s.wrapKey (fit 32 k)⟩ = some r →
      ∃ t, exec (.cakLoad q) s = .next t ∧ t.boot.keyring = r ∧
        mget t.mka.caks (bits (e.w 1) 6 0) = some ((e.bytes 2 4).take (bits (e.w 1) 13 8), fit 32 k) ∧
        (t.wqOf q.toNat).exec = none) ∧
    (∀ key, s.cmdStarts q 0x48 e rest 2 false →
      (bit (e.w 1) 1 = true ∧ key = none ∨
        bit (e.w 1) 1 = false ∧ ∃ k, Std.aesUnwrap s.kek (e.bytes 2 5) = some k ∧ key = some (fit 32 k)) →
      exec (.keySet q) s = .next (({ s.begun q e rest with boot := { s.boot with
        keyring := (if bit (e.w 1) 0 = true then { s.boot.keyring with admin := key }
          else { s.boot.keyring with oper := key }) } }).finish q.toNat 0 0 0)) ∧
    (s.cmdStarts q 0x30 e rest (writeLevel e.target) true → targetReady e.target (s.begun q e rest) = true →
      (targetOf e.target).isSome = true ∨ e.target = 0x20 → mget s.hst.arms (bits (e.w 1) 35 32) = none →
      ∃ t, exec (.loadArm q) s = .next t ∧ (t.wqOf q.toNat).exec = some e ∧
        mget t.hst.arms (bits (e.w 1) 35 32) = some { wq := q.toNat, entry := e, target := e.target, slices := e.slices, count := bits (e.w 1) 31 0, index := e.w 2, la := e.w 3 }) ∧
    (s.cmdStarts q 0x38 e rest 1 false → bfdInRange (e.bfd (mget s.hst.bfd e.bfdId)) = true →
      ratesOver ((mset s.hst.bfd e.bfdId (e.bfd (mget s.hst.bfd e.bfdId))).map (·.2.txUs)) = false →
      ratesOver ((mset s.hst.bfd e.bfdId (e.bfd (mget s.hst.bfd e.bfdId))).map (·.2.rxUs)) = false →
      exec (.bfdSet q) s =
        .next (((s.begun q e rest).setBfd e.bfdId (e.bfd (mget s.hst.bfd e.bfdId))).finish q.toNat 0 0 0)) ∧
    (∀ b, s.cmdStarts q 0x39 e rest 1 false → mget s.hst.bfd e.bfdId = some b →
      ∃ t, exec (.bfdDel q) s = .next t ∧ mget t.hst.bfd e.bfdId = none ∧ (t.wqOf q.toNat).exec = none) ∧
    (s.boot.flashWait = none →
      (∀ u, s.cmdStarts q 0x40 e rest 2 false →
        (s.begun q e rest).updBegin (bits (e.w 1) 63 56) (bits (e.w 1) 31 0) = (0, u) →
        exec (.imgBegin q) s = .next { u with boot := { u.boot with flashWait := some (q.toNat, .erase) } }) ∧
      (∀ d, s.cmdStarts q 0x41 e rest 2 false → s.updBlockCode (e.w 1) = 0 → s.updHeld (e.w 1) = false ∨ s.updErases (e.w 1) = true →
        ∃ t, exec (.imgBlock q (some d)) s = .next t ∧ t.boot.flashWait = some (q.toNat, .block (e.w 1) (fit 4096 d)) ∧
          (t.wqOf q.toNat).exec = some e) ∧
      (∀ d, s.cmdStarts q 0x41 e rest 2 false → s.updBlockCode (e.w 1) = 0 → s.updHeld (e.w 1) = true → s.updErases (e.w 1) = false →
        exec (.imgBlock q (some d)) s = .next (((s.begun q e rest).updBlock (e.w 1) (fit 4096 d)).finish q.toNat 0 0 0)) ∧
      (s.cmdStarts q 0x42 e rest 2 false → (s.begun q e rest).updEndCode = 0 → s.boot.upd.kind ≠ 2 →
        exec (.imgEnd q) s = .next ((s.begun q e rest).updGood.finish q.toNat 0 (s.begun q e rest).updGood.updState 0)) ∧
      (s.cmdStarts q 0x42 e rest 2 false → (s.begun q e rest).updEndCode = 0 → s.boot.upd.kind = 2 →
        ∃ t, exec (.imgEnd q) s = .next t ∧ t.boot.flashWait = some (q.toNat, .seal s.updSealed) ∧
          (t.wqOf q.toNat).exec = some e) ∧
      (s.cmdStarts q 0x43 e rest 2 false → s.started = false → (s.begun q e rest).updStartCode = 0 →
        exec (.imgStart q) s =
          .next (((s.begun q e rest).updRecord.setF F.MGT_UPDATE_STATE 0).finish q.toNat 0 0 0).updRestart))

/-- What the management die does of itself: it fetches entries, and halts at a malformed one (R361, R363); a DMA descriptor
moves its data and is marked, bad, failed or late (R371 to R375); an armed load is applied, or waits for its turn at TD (R162,
R375); punted frames reach their ring and injected ones their slice (R368, R369); BFD packets come and go, and silence takes a
session down (R376). The model's choices: host memory is operands and outside effects (log 8), the resident rings (log 37),
where BFD's addresses stand (log 38), armed loads (log 44), management SRAM (log 45), the index of a late error (log 46) and
the headers RFC 5881 leaves to a sender (log 48). Completes: wqEntryFetch, armedLoadApply, puntRingWrite, injectSlotTake,
dmaDescriptorComplete, dmaBusError, dmaLateError, bfdPacketReceive, bfdTransmitTimer, bfdDetectTimeout. -/
def Obligations.ServicesRun : Prop :=
  ∀ (s : State),
    (∀ (q : BitVec 6), s.pathUp .pcie = true → s.wqFetches q.toNat = true →
      (∀ l, s.wqCause q.toNat (s.fetchAt q.toNat) (l.getD 0 0).toNat = 0 →
        ∃ t, exec (.wqEntryFetch q (some l)) s = .next t ∧ (t.wqOf q.toNat).cache = (s.wqOf q.toNat).cache ++
          [⟨s.fetchAt q.toNat, l.take (4 * bits (l.getD 0 0).toNat 55 48)⟩]) ∧
      (∀ l, s.wqCause q.toNat (s.fetchAt q.toNat) (l.getD 0 0).toNat ≠ 0 → (s.hst.wq.any fun kv => kv.2.exec.isSome) = false →
        ∃ t, exec (.wqEntryFetch q (some l)) s = .next t ∧ t.fb F.HST_STATUS_HALTED = true ∧ t.raised 33 = true ∧
          t.grp.holds.contains .halt = true) ∧
      (∃ t, exec (.wqEntryFetch q none) s = .next t ∧ t.fb F.HST_WQ_STATUS_FETCH_ERR q.toNat = true ∧
        t.fb F.HST_WQ_CFG_EN q.toNat = false)) ∧
    (∀ (k : BitVec 4) desc host, s.mgmt = true → s.exportRuns k.toNat = false → s.dmaRuns k.toNat = true →
      (s.descAllowed k.toNat (descOf desc) = true → s.descEarly (descOf desc) = false → s.hbm.poison = [] →
        ((descOf desc).hbm = true → s.coreRuns = true ∧ s.hbmReady = true) →
        ∃ t, exec (.dmaDescriptorComplete k desc host) s = .next t ∧
          t.f F.DMA_CH_CI_INDEX k.toNat = (s.f F.DMA_CH_CI_INDEX k.toNat + 1) % 2 ^ 32 ∧
          mget t.hst.late k.toNat = some (some (s.f F.DMA_CH_CI_INDEX k.toNat)) ∧
          Out.hostWrite (s.f F.DMA_CH_RING_ADDR k.toNat * 4096 +
            s.f F.DMA_CH_CI_INDEX k.toNat % 2 ^ s.f F.DMA_CH_CFG_SIZE k.toNat * 32 + 7) [1] ∈ t.out ∧
          ((descOf desc).src = 0 → (descOf desc).dst = 1 → (descOf desc).dstFixed = false → ∀ i, i < (descOf desc).length →
            mgetD t.hbm.mgmt ((descOf desc).dstAddr + i) 0 = (fit (descOf desc).length host).getD i 0)) ∧
      (s.descAllowed k.toNat (descOf desc) = false →
        ∃ t, exec (.dmaDescriptorComplete k desc host) s = .next t ∧ t.raised (64 + k.toNat) = true ∧ t.hbm = s.hbm ∧
          t.f F.DMA_CH_CI_INDEX k.toNat = (s.f F.DMA_CH_CI_INDEX k.toNat + 1) % 2 ^ 32 ∧
          t.f F.DMA_CH_STATUS_BAD k.toNat = min F.DMA_CH_STATUS_BAD.max (s.f F.DMA_CH_STATUS_BAD k.toNat + 1)) ∧
      (∀ n, ((descOf desc).hbm = true → s.coreRuns = true ∧ s.hbmReady = true ∧ s.f F.PWR_STATUS_DEVICE ≠ 3) →
        ∃ t, exec (.dmaBusError k desc host n) s = .next t ∧ t.raised (64 + k.toNat) = true ∧
        t.f F.DMA_CH_CI_INDEX k.toNat = (s.f F.DMA_CH_CI_INDEX k.toNat + 1) % 2 ^ 32 ∧
        t.f F.DMA_CH_STATUS_BAD k.toNat = min F.DMA_CH_STATUS_BAD.max (s.f F.DMA_CH_STATUS_BAD k.toNat + 1))) ∧
    (∀ (k : BitVec 4) x, s.mgmt = true → mget s.hst.late k.toNat = some x →
      ∃ t, exec (.dmaLateError k) s = .next t ∧ mget t.hst.late k.toNat = none ∧ t.raised (80 + k.toNat) = true ∧
        t.fb F.DMA_CH_STATUS_LATE k.toNat = true ∧
        (∀ idx, x = some idx → Out.hostWrite (s.f F.DMA_CH_RING_ADDR k.toNat * 4096 +
          idx % 2 ^ s.f F.DMA_CH_CFG_SIZE k.toNat * 32 + 7) [3] ∈ t.out)) ∧
    (∀ (k : BitVec 4) a, s.mgmt = true → mget s.hst.arms k.toNat = some a → a.pulsed = true → s.f F.PWR_STATUS_DEVICE ≠ 3 →
      let disarm := fun (u : State) => { u with hst := { u.hst with arms := merase u.hst.arms k.toNat } }
      let ready := s.coreRuns = true ∧ s.hbmReady = true ∧ targetReady a.target s = true ∧
        (a.target = 0x20 → s.fb F.TRN_STATUS_CLEAR_DONE = true)
      (∀ bad, s.fb F.DMA_CH_STATUS_LATE k.toNat = true ∨ (bad = true ∧ ready) →
        exec (.armedLoadApply k bad) s = .next (((disarm s.begin).setTdFifo
          (s.trn.fifo.filter fun o => match o with | .arm c _ => c != k.toNat | _ => true)).finish a.wq 0x10 0 0)) ∧
      (s.fb F.DMA_CH_STATUS_LATE k.toNat = false → s.hbm.poison = [] → ready →
        (∀ x st n u b, targetOf a.target = some x → a.target ≠ 0x20 →
          (s.begin.wakeSpan a.la (a.count * x.bytes)).tblAsked a.target a.index a.count false b →
          State.tblPuts a.target a.slices (cutEntries x.bytes a.count (s.hbmRead a.la (a.count * x.bytes))) a.index 0 (disarm b) =
            (st, n, u) →
          exec (.armedLoadApply k false) s = .next (u.finish a.wq st n 0)) ∧
        (∀ st n u, a.target = 0x20 → s.trn.fifo = [] →
          State.rowPuts (cutEntries 128 a.count (s.hbmRead a.la (a.count * 128))) 0
            (disarm (s.begin.wakeSpan a.la (a.count * 128))) = (st, n, u) →
          exec (.armedLoadApply k false) s = .next (u.finish a.wq st n 0)) ∧
        (a.target = 0x20 → s.trn.fifo ≠ [] → (∀ rows, .arm k.toNat rows ∉ s.trn.fifo) → s.trn.fifo.length < 1024 →
          ∃ t rows, exec (.armedLoadApply k false) s = .next t ∧ t.trn.fifo = s.trn.fifo ++ [.arm k.toNat rows] ∧
            t.trn.rows = s.trn.rows ∧ t.hst.arms = s.hst.arms))) ∧
    (∀ (r : BitVec 4) p rest, s.coreRuns = true → mgetD s.que.toPunt r.toNat [] = p :: rest → p.chains = [] →
      s.fb F.HST_STATUS_HALTED = false → s.puntOwned r.toNat = false → s.secondPunt = false →
      (s.fb F.HST_PUNT_CFG_EN r.toNat = true → s.puntFull r.toNat = false →
        ∃ t, exec (.puntRingWrite r) s = .next t ∧ mgetD t.que.toPunt r.toNat [] = rest ∧
          t.f F.HST_PUNT_PI_INDEX r.toNat = (s.f F.HST_PUNT_PI_INDEX r.toNat + 1) % 2 ^ 32 ∧
          Out.hostWrite (s.f F.HST_PUNT_ADDR_ADDR r.toNat * 4096 + s.f F.HST_PUNT_PI_INDEX r.toNat %
              2 ^ s.f F.HST_PUNT_CFG_SIZE r.toNat * slotBytes (s.f F.HST_PUNT_CFG_SLOT r.toNat))
            ((puntHeader p (p.bytes.take (slotBytes (s.f F.HST_PUNT_CFG_SLOT r.toNat) - 64)).length).flatMap (leBytes 8) ++
              p.bytes.take (slotBytes (s.f F.HST_PUNT_CFG_SLOT r.toNat) - 64)) ∈ t.out) ∧
      (s.fb F.HST_PUNT_CFG_EN r.toNat = true → s.puntFull r.toNat = true →
        ∃ t, exec (.puntRingWrite r) s = .next t ∧ mgetD t.que.toPunt r.toNat [] = rest ∧
          t.f F.HST_PUNT_PI_INDEX r.toNat = s.f F.HST_PUNT_PI_INDEX r.toNat ∧
          t.rd .CNT_DROP_TOTAL 0 0 0 = s.rd .CNT_DROP_TOTAL 0 0 0 + 1 ∧
          t.f F.HST_PUNT_DROPS_FULL r.toNat = min F.HST_PUNT_DROPS_FULL.max (s.f F.HST_PUNT_DROPS_FULL r.toNat + 1))) ∧
    (∀ (r : BitVec 4) slot, s.coreRuns = true → s.fb F.HST_STATUS_HALTED = false → s.fb F.HST_INJ_CFG_OWNER r.toNat = false →
      s.fb F.HST_INJ_CFG_EN r.toNat = true → s.f F.HST_INJ_CI_INDEX r.toNat ≠ s.f F.HST_INJ_PI_INDEX r.toNat →
      (60 ≤ (injectDesc slot).2.1 → (injectDesc slot).2.1 ≤ slotBytes (s.f F.HST_INJ_CFG_SLOT r.toNat) - 32 →
        s.gated ((injectDesc slot).1 / 16) = false → s.fifoRoom ((injectDesc slot).1 / 16) (injectDesc slot).2.1 = true →
        ∃ t f, exec (.injectSlotTake r slot) s = .next t ∧
          t.fifoOf ((injectDesc slot).1 / 16) = s.fifoOf ((injectDesc slot).1 / 16) ++ [f] ∧ f.port = (injectDesc slot).1 ∧
          f.bytes = fit (injectDesc slot).2.1 (slice slot 32 (injectDesc slot).2.1) ∧ f.inject = some (injectDesc slot).2.2 ∧
          t.f F.HST_INJ_CI_INDEX r.toNat = (s.f F.HST_INJ_CI_INDEX r.toNat + 1) % 2 ^ 32) ∧
      ((injectDesc slot).2.1 < 60 →
        ∃ t, exec (.injectSlotTake r slot) s = .next t ∧ t.cry.fifo = s.cry.fifo ∧
          t.rd .CNT_DROP_TOTAL 0 0 0 = s.rd .CNT_DROP_TOTAL 0 0 0 + 1 ∧
          t.f F.HST_INJ_CI_INDEX r.toNat = (s.f F.HST_INJ_CI_INDEX r.toNat + 1) % 2 ^ 32)) ∧
    (∀ (r : BitVec 4) slot x rest, s.coreRuns = true → s.fb F.HST_STATUS_HALTED = false →
      s.fb F.HST_INJ_CFG_OWNER r.toNat = true → mgetD s.hst.resInj r.toNat [] = x :: rest → s.gated (x.port / 16) = false →
      s.fifoRoom (x.port / 16) x.frame.length = true →
      ∃ t f, exec (.injectSlotTake r slot) s = .next t ∧ t.fifoOf (x.port / 16) = s.fifoOf (x.port / 16) ++ [f] ∧
        f.port = x.port ∧ f.bytes = x.frame ∧ mgetD t.hst.resInj r.toNat [] = rest ∧
        t.f F.HST_INJ_CI_INDEX r.toNat = (s.f F.HST_INJ_CI_INDEX r.toNat + 1) % 2 ^ 32) ∧
    (∀ (r : BitVec 4) port f rest, s.mgmt = true → mgetD s.hst.resPunt r.toNat [] = (port, f) :: rest →
      (bfdFrame f = none →
        ∃ t, exec (.bfdPacketReceive r) s = .next t ∧ mgetD t.hst.resPunt r.toNat [] = rest ∧
          t.rd .CNT_DROP_TOTAL 0 0 0 = s.rd .CNT_DROP_TOTAL 0 0 0 + 1 ∧ t.hst.bfd = s.hst.bfd) ∧
      (∀ v6 src dst u p id b, bfdFrame f = some (v6, src, dst, u) → bfdFields u = some p → s.runsBfd = true →
        p.good u.length = true → p.auth = false → p.poll = false → s.bfdFor port v6 src dst p = some (id, b) →
        mget s.hst.bfd id = some b → b.state ≠ 0 →
        ∃ t, exec (.bfdPacketReceive r) s = .next t ∧ mgetD t.hst.resPunt r.toNat [] = rest ∧
          mget t.hst.bfd id = some { b with
            yourDisc := p.myDisc, peerState := p.state, peerTxUs := p.tx, peerRxUs := p.rx, peerMult := p.mult,
            poll := b.poll && !p.final, state := (bfdNext b.state b.diag p.state).1,
            diag := (bfdNext b.state b.diag p.state).2 })) ∧
    (∀ (id : BitVec 14) b, s.mgmt = true → s.runsBfd = true → mget s.hst.bfd id.toNat = some b →
      (∀ r, s.residentRing = some r → (mgetD s.hst.resInj r []).length < 2 ^ s.f F.HST_INJ_CFG_SIZE r →
        ∃ t, exec (.bfdTransmitTimer id) s = .next t ∧ mgetD t.hst.resInj r [] = mgetD s.hst.resInj r [] ++
          [{ port := b.port, entry := b.entry, frame := bfdEncap b.ipv6 b.localAddr b.peerAddr (bfdPacket b false) }]) ∧
      (2 ≤ b.state →
        ∃ t, exec (.bfdDetectTimeout id) s = .next t ∧
          mget t.hst.bfd id.toNat = some { b with yourDisc := 0, state := 1, diag := 1 }))

/-! ### Rules of the data path, stated whole -/

/-- R27: a slice's ingress FIFO takes a frame exactly while it then holds at most 8,192 frames and 4 MiB, whatever its port; a
frame beyond a limit is dropped whole and counted under ING_FIFO_FULL against its port, and the frames in the FIFO stay. -/
def Obligations.IngressFifoKeepsItsLimits : Prop :=
  ∀ (s : State) (f : RxFrame),
    let q := s.fifoOf (f.port / 16)
    let fits := q.length + 1 ≤ 8192 ∧ (q.map fun x => x.bytes.length).sum + f.bytes.length ≤ 4194304
    (fits → (s.toFifo f).fifoOf (f.port / 16) = q ++ [{ f with entered := s.pica.num }]) ∧
    (¬ fits → (s.toFifo f).cry.fifo = s.cry.fifo ∧
      (s.toFifo f).rd .CNT_DROP_TOTAL 0 0 0 = s.rd .CNT_DROP_TOTAL 0 0 0 + 1 ∧
      ⟨statKey spReason 0x001, [1, f.bytes.length + 4], s.pica.num⟩ ∈ (s.toFifo f).cnt.posts ∧
      (f.port < 128 → ⟨statKey spPort (2 * f.port), [0, 0, 1, f.bytes.length + 4], s.pica.num⟩ ∈ (s.toFifo f).cnt.posts)) ∧
    (∀ k, k ≠ f.port / 16 → (s.toFifo f).fifoOf k = s.fifoOf k)

/-- R215: freeing or releasing a buffer that is free already changes no free list and no chain: the handle is logged, the
event counted, DFREE set and BUF_DOUBLE_FREE raised, and nothing else changes. -/
def Obligations.DoubleFreeIsCaught : Prop :=
  ∀ (s t : State) (h : Nat), (s.linkOf h).state = false → t = s.freeSeg h ∨ t = s.release h →
    t.buf = s.buf ∧ t.f F.BUF_DFREE_LOG_HANDLE = h % (F.BUF_DFREE_LOG_HANDLE.max + 1) ∧
    t.f F.BUF_DFREE_LOG_COUNT = min F.BUF_DFREE_LOG_COUNT.max (s.f F.BUF_DFREE_LOG_COUNT + 1) ∧
    t.fb F.BUF_STATUS_DFREE = true ∧ t.raised 449 = true ∧ { t with regs := s.regs, evt := s.evt } = s

/-- R281: a cell whose header CRC fails or whose TYPE is reserved counts as HDR_ERR, and one for another endpoint as MISROUTE,
with no other effect; an idle cell has none. -/
def Obligations.ReceivedCellsAreChecked : Prop :=
  ∀ (s : State) (c : List Byte), c.length = 256 →
    let typ := beNat (slice c 0 1) / 64
    (crc16 (slice c 0 14) ≠ beNat (slice c 14 2) → s.fabCell c = s.sat F.FAB_RX_DROPS_HDR_ERR 1) ∧
    (crc16 (slice c 0 14) = beNat (slice c 14 2) →
      (typ = 3 → s.fabCell c = s.sat F.FAB_RX_DROPS_HDR_ERR 1) ∧
      (typ = 0 → s.fabCell c = s) ∧
      (typ = 1 ∨ typ = 2 → beNat (slice c 1 2) / 32 % 1024 ≠ s.myEp → s.fabCell c = s.sat F.FAB_RX_DROPS_MISROUTE 1))

/-! ### What every step keeps -/

/-- Every step keeps the sparse memories in their canonical form (log entry 3): keys strictly rising, and in flash and in the
management region no entry for a byte that an unlisted address reads as. -/
def Obligations.MemoriesStayCanonical : Prop :=
  ∀ (s t : State), s.memWf = true → step s = .next t → t.memWf = true

/-- No step lowers the packet number of an SA that stays valid (R87, R90, R93): NEXT_PN of a transmit SA, and the highest
number a receive SA has taken, never fall while the SA is installed. -/
def Obligations.PacketNumbersNeverFall : Prop :=
  ∀ (s t : State) (i : Nat), step s = .next t → (s.sa i).valid = true → (t.sa i).valid = true → (s.sa i).nextPn ≤ (t.sa i).nextPn
end

