-- ==== Sys2Proof/Laws/Maps.lean ====
section
/-! SUPPORT. Laws of the sparse maps: reading after a write, and that every operation keeps the canonical form. -/
namespace Sys2Proof.Machine

variable {α β : Type}

@[simp] theorem mget_nil (k : Nat) : mget ([] : SMap α) k = none := rfl

@[simp] theorem mgetD_nil (k : Nat) (d : α) : mgetD ([] : SMap α) k d = d := rfl

theorem mget_mset (m : SMap α) (k j : Nat) (v : α) : mget (mset m k v) j = if k = j then some v else mget m j := by
  induction m with
  | nil => simp [mset, mget]
  | cons h t ih =>
    obtain ⟨a, b⟩ := h
    simp only [mset]
    by_cases h1 : k < a
    · simp only [h1, if_true, mget]
    · by_cases h2 : k = a
      · subst h2
        simp only [h1, if_false, if_true, mget]
        by_cases h3 : k = j <;> simp [h3]
      · simp only [h1, h2, if_false, mget, ih]
        by_cases h3 : a = j
        · have : ¬ k = j := by omega
          simp [h3, this]
        · simp [h3]

theorem mget_merase (m : SMap α) (k j : Nat) : mget (merase m k) j = if k = j then none else mget m j := by
  induction m with
  | nil => simp [merase, mget]
  | cons h t ih =>
    obtain ⟨a, b⟩ := h
    simp only [merase]
    by_cases h1 : a = k
    · subst h1
      simp only [if_true, ih, mget]
      by_cases h2 : a = j <;> simp [h2]
    · simp only [h1, if_false, mget, ih]
      by_cases h2 : a = j
      · have : ¬ k = j := by omega
        simp [h2, this]
      · simp [h2]

@[simp] theorem mget_mset_same (m : SMap α) (k : Nat) (v : α) : mget (mset m k v) k = some v := by simp [mget_mset]

@[simp] theorem mgetD_mset_same (m : SMap α) (k : Nat) (v d : α) : mgetD (mset m k v) k d = v := by simp [mgetD]

theorem mgetD_mset (m : SMap α) (k j : Nat) (v d : α) : mgetD (mset m k v) j d = if k = j then v else mgetD m j d := by
  by_cases h : k = j <;> simp [mgetD, mget_mset, h]

theorem mgetD_msetD [DecidableEq α] (m : SMap α) (k j : Nat) (v d : α) :
    mgetD (msetD m k d v) j d = if k = j then v else mgetD m j d := by
  unfold msetD
  by_cases hv : v = d
  · subst hv
    by_cases h : k = j <;> simp [mgetD, mget_merase, h]
  · simp [hv, mgetD_mset]

@[simp] theorem mgetD_msetD_same [DecidableEq α] (m : SMap α) (k : Nat) (v d : α) : mgetD (msetD m k d v) k d = v := by
  simp [mgetD_msetD]

theorem mgetD_msetD_other [DecidableEq α] (m : SMap α) (k j : Nat) (v d e : α) (h : k ≠ j) :
    mgetD (msetD m k d v) j e = mgetD m j e := by
  by_cases hv : v = d <;> simp [msetD, mgetD, hv, mget_mset, mget_merase, h]

/-! ### The canonical form -/

theorem maboveB_mono (m : SMap α) (a b : Nat) (h : a ≤ b) (hm : maboveB b m = true) : maboveB a m = true := by
  induction m with
  | nil => rfl
  | cons x t ih =>
    obtain ⟨k, v⟩ := x
    simp only [maboveB, Bool.and_eq_true, decide_eq_true_eq] at hm ⊢
    exact ⟨by omega, hm.2⟩

theorem mwf_of_above (m : SMap α) (b : Nat) (h : maboveB b m = true) : mwf m = true := by
  cases m with
  | nil => rfl
  | cons x t =>
    obtain ⟨k, v⟩ := x
    simp only [maboveB, Bool.and_eq_true] at h
    exact h.2

theorem maboveB_mset (m : SMap α) (b k : Nat) (v : α) (hk : b < k) (hm : maboveB b m = true) :
    maboveB b (mset m k v) = true := by
  induction m generalizing b with
  | nil => simp [mset, maboveB, hk]
  | cons x t ih =>
    obtain ⟨a, w⟩ := x
    simp only [maboveB, Bool.and_eq_true, decide_eq_true_eq] at hm
    simp only [mset]
    split
    · simp only [maboveB, Bool.and_eq_true, decide_eq_true_eq]
      exact ⟨hk, ‹k < a›, hm.2⟩
    · split
      · simp only [maboveB, Bool.and_eq_true, decide_eq_true_eq]
        subst ‹k = a›
        exact ⟨hk, hm.2⟩
      · simp only [maboveB, Bool.and_eq_true, decide_eq_true_eq]
        exact ⟨hm.1, ih a (by omega) hm.2⟩

theorem mwf_mset (m : SMap α) (k : Nat) (v : α) (h : mwf m = true) : mwf (mset m k v) = true := by
  cases m with
  | nil => rfl
  | cons x t =>
    obtain ⟨a, w⟩ := x
    simp only [mset]
    split
    · simp only [mwf, maboveB, Bool.and_eq_true, decide_eq_true_eq] at h ⊢
      exact ⟨‹k < a›, h⟩
    · split
      · subst ‹k = a›
        exact h
      · exact maboveB_mset t a k v (by omega) h

theorem maboveB_merase (m : SMap α) (b k : Nat) (h : maboveB b m = true) : maboveB b (merase m k) = true := by
  induction m generalizing b with
  | nil => rfl
  | cons x t ih =>
    obtain ⟨a, w⟩ := x
    simp only [maboveB, Bool.and_eq_true, decide_eq_true_eq] at h
    simp only [merase]
    split
    · exact ih b (maboveB_mono t b a (by omega) h.2)
    · simp only [maboveB, Bool.and_eq_true, decide_eq_true_eq]
      exact ⟨h.1, ih a h.2⟩

theorem mwf_merase (m : SMap α) (k : Nat) (h : mwf m = true) : mwf (merase m k) = true := by
  cases m with
  | nil => rfl
  | cons x t =>
    obtain ⟨a, w⟩ := x
    simp only [merase]
    split
    · exact mwf_of_above _ a (maboveB_merase t a k h)
    · exact maboveB_merase t a k h

theorem mwf_msetD [DecidableEq α] (m : SMap α) (k : Nat) (d v : α) (h : mwf m = true) : mwf (msetD m k d v) = true := by
  unfold msetD
  split
  · exact mwf_merase m k h
  · exact mwf_mset m k v h

theorem maboveB_filter (p : Nat × α → Bool) (m : SMap α) (b : Nat) (h : maboveB b m = true) :
    maboveB b (m.filter p) = true := by
  induction m generalizing b with
  | nil => rfl
  | cons x t ih =>
    obtain ⟨a, w⟩ := x
    simp only [maboveB, Bool.and_eq_true, decide_eq_true_eq] at h
    simp only [List.filter]
    split
    · simp only [maboveB, Bool.and_eq_true, decide_eq_true_eq]
      exact ⟨h.1, ih a h.2⟩
    · exact ih b (maboveB_mono t b a (by omega) h.2)

theorem mwf_mfilter (p : Nat → α → Bool) (m : SMap α) (h : mwf m = true) : mwf (mfilter p m) = true := by
  cases m with
  | nil => rfl
  | cons x t =>
    obtain ⟨a, w⟩ := x
    unfold mfilter
    simp only [List.filter]
    split
    · exact maboveB_filter _ t a h
    · exact mwf_of_above _ a (maboveB_filter _ t a h)

end Sys2Proof.Machine
end

