-- ==== Sys2Proof/Laws/Engine.lean ====
section
/-! SUPPORT. Laws of engine threads: what the performance counters leave alone, and what an issue that nothing holds up
does. -/
namespace Sys2Proof.Machine

/-- What the performance counters leave: all of the state but registers, events, the sample FIFOs and the count of free
values. -/
def State.samePerf (s t : State) : Prop :=
  t = { s with regs := t.regs, evt := t.evt, ppe := { s.ppe with samples := t.ppe.samples }, free := t.free }

theorem State.samePerf_refl (s : State) : s.samePerf s := rfl

theorem State.samePerf_trans {s t u : State} (h1 : s.samePerf t) (h2 : t.samePerf u) : s.samePerf u := by
  unfold State.samePerf at *
  rw [h2, h1]

theorem State.samePerf_wr (s : State) (r : Reg) (i j k : Nat) (v : W64) : s.samePerf (s.wr r i j k v) := rfl

theorem State.samePerf_setF (s : State) (x : Fld) (v i j k : Nat) : s.samePerf (s.setF x v i j k) := rfl

theorem State.samePerf_raise (s : State) (n : Nat) : s.samePerf (s.raise n) := by
  unfold State.raise State.raiseD
  split
  · rfl
  · rfl

theorem State.samePerf_foldl {α : Type} (f : State → α → State) (hf : ∀ (s : State) (x : α), s.samePerf (f s x)) (l : List α) (s : State) :
    s.samePerf (l.foldl f s) := by
  induction l generalizing s with
  | nil => rfl
  | cons x t ih => exact State.samePerf_trans (hf s x) (ih (f s x))

theorem State.samePerf_pcSample (s : State) (k : Nat) (x : PcSample) : s.samePerf (s.pcSample k x) := by
  unfold State.pcSample
  simp only
  split
  · rfl
  · exact State.samePerf_trans
      (show s.samePerf (({ s with ppe := { s.ppe with
                            samples := mset s.ppe.samples k (mgetD s.ppe.samples k [] ++ [x]) } } : State).setF
          F.PPE_PC_STATUS_SAMPLES ((mgetD s.ppe.samples k []).length + 1) (k / 4) (k % 4)) from rfl)
      (State.samePerf_raise _ _)

theorem State.samePerf_pcWrap (s : State) (k n : Nat) (x : PcSample) : s.samePerf (s.pcWrap k n x) := by
  unfold State.pcWrap
  split
  · exact State.samePerf_trans (State.samePerf_setF _ _ _ _ _ _) (State.samePerf_raise _ _)
  · simp only
    split
    · exact State.samePerf_trans (State.samePerf_trans (State.samePerf_setF _ _ _ _ _ _) (State.samePerf_raise _ _))
        (State.samePerf_pcSample _ _ _)
    · exact State.samePerf_trans (State.samePerf_setF _ _ _ _ _ _) (State.samePerf_raise _ _)

theorem State.samePerf_pcAdd (s : State) (k n c e : Nat) : s.samePerf (s.pcAdd k n c e) := by
  unfold State.pcAdd
  simp only
  split
  · exact State.samePerf_trans (show s.samePerf ((s.setF F.PPE_PC_VAL_VALUE _ _ _ _).pcSkid e n).2 from rfl)
      (State.samePerf_pcWrap _ _ _ _)
  · exact State.samePerf_setF _ _ _ _ _ _

/-- An event of Table 8-10 changes registers, events, sample FIFOs and the count of free values alone. -/
theorem State.perf_same (s : State) (ev n : Nat) : s.samePerf (s.perf ev n) := by
  unfold State.perf
  split
  · rfl
  · apply State.samePerf_foldl
    intro t x
    split
    · split
      · exact State.samePerf_trans (show t.samePerf t.fresh.2 from rfl) (State.samePerf_pcAdd _ _ _ _ _)
      · exact State.samePerf_pcAdd _ _ _ _ _
    · rfl

@[simp] theorem State.perf_th (s : State) (ev n m : Nat) : (s.perf ev n).th m = s.th m := by
  rw [State.perf_same s ev n]; rfl

@[simp] theorem State.perf_progWord (s : State) (ev n a b c : Nat) :
    (s.perf ev n).progWord a b c = s.progWord a b c := by
  rw [State.perf_same s ev n]; rfl

@[simp] theorem State.perf_progLen (s : State) (ev n a b : Nat) : (s.perf ev n).progLen a b = s.progLen a b := by
  rw [State.perf_same s ev n]; rfl

@[simp] theorem State.setTh_th_same (s : State) (n : Nat) (t : Thread) : (s.setTh n t).th n = t := by
  simp [State.setTh, State.th]

theorem State.setTh_th_other (s : State) (n m : Nat) (t : Thread) (h : n ≠ m) : (s.setTh n t).th m = s.th m := by
  simp [State.setTh, State.th, mgetD_msetD, h]

@[simp] theorem State.begin_th (s : State) (n : Nat) : s.begin.th n = s.th n := rfl
@[simp] theorem State.begin_progLen (s : State) (a b : Nat) : s.begin.progLen a b = s.progLen a b := rfl
@[simp] theorem State.begin_progWord (s : State) (a b c : Nat) : s.begin.progWord a b c = s.progWord a b c := rfl
@[simp] theorem State.begin_tq (s : State) (q : Issue) : s.begin.tq q = s.tq q := rfl

/-- Counting an issue changes registers, events, sample FIFOs and the count of free values alone. -/
theorem State.ran_same (s : State) (q : Issue) : s.begin.samePerf (s.ran q) := by
  unfold State.ran
  split
  · rfl
  · exact State.perf_same _ _ _

@[simp] theorem State.ran_th (s : State) (q : Issue) (m : Nat) : (s.ran q).th m = s.th m := by
  rw [State.ran_same s q]; rfl

@[simp] theorem State.ran_progLen (s : State) (q : Issue) (a b : Nat) : (s.ran q).progLen a b = s.progLen a b := by
  rw [State.ran_same s q]; rfl

@[simp] theorem State.ran_clusterWord (s : State) (q : Issue) (a b : Nat) :
    (s.ran q).clusterWord a b = s.clusterWord a b := by
  rw [State.ran_same s q]; rfl

/-- Going on to an index inside the program stores the thread there. -/
theorem State.goto_inside (s : State) (n : Nat) (t : Thread) (pc : Nat) (h : pc % 65536 < s.progLen (thSlice n) t.bank) :
    s.goto n t pc = s.setTh n { t with pc := pc % 65536, again := false } := by
  simp [State.goto, h]

/-- An issue that nothing holds up counts itself and runs the instruction (R180, R187). -/
theorem State.issue_runs (s : State) (q : Issue) (i : Instr) (uses : List (BitVec 5)) (f : Thread → State → State)
    (h : s.issues q i uses) :
    s.begin.issue q i uses f = f (s.tq q) (s.ran q) := by
  obtain ⟨_, h2, h3, h4, h5⟩ := h
  have h6 : (uses.find? fun r => (s.tq q).pend.contains r.toNat) = none := by
    rw [List.find?_eq_none]
    intro r hr
    rw [h5 r hr]
    exact Bool.false_ne_true
  unfold State.issue
  simp only [State.begin_th, State.begin_progWord]
  change (if (s.tq q).state = .ready ∧ engDecode q (s.progWord _ (s.tq q).bank (s.tq q).pc) = some i then _ else _) = _
  rw [if_pos ⟨h2, h3⟩, h4]
  change (match uses.find? fun r => (s.tq q).pend.contains r.toNat with | some r => _ | none => _) = _
  rw [h6]
  rfl

theorem Thread.setReg_bank (t : Thread) (r : BitVec 5) (v : W64) : (t.setReg r v).bank = t.bank := by
  unfold Thread.setReg; split <;> rfl

/-- An instruction that computes one register completes (R181, R183). -/
theorem State.alu_runs (s : State) (q : Issue) (i : Instr) (rd : BitVec 5) (uses : List (BitVec 5)) (v : Thread → W64)
    (h : s.issues q i (rd :: uses)) (hp : s.inProgram q ((s.tq q).pc + 1)) :
    s.alu q i rd uses v = .next (s.wrote q rd (v (s.tq q)) ((s.tq q).pc + 1)) := by
  have hc := h.1
  unfold State.alu State.onCore
  rw [if_pos hc]
  dsimp only
  rw [State.issue_runs s q i _ _ h, State.goto_inside]
  · rfl
  · simpa [Thread.setReg_bank, State.inProgram] using hp

/-! ### Loads, stores and branches -/

@[simp] theorem State.perf_clusterWord (s : State) (ev n a b : Nat) : (s.perf ev n).clusterWord a b = s.clusterWord a b := by
  rw [State.perf_same s ev n]; rfl

/-- A load that finds its bytes completes (R176, R183). -/
theorem State.loadN_runs (s : State) (q : Issue) (i : Instr) (rd a : BitVec 5) (off : W16) (n : Nat) (v : W64)
    (h : s.issues q i [rd, a]) (hp : s.inProgram q ((s.tq q).pc + 1))
    (hl : (s.ran q).load q.thread.toNat (s.tq q) ((s.tq q).addr a off) n = .ok v) :
    s.loadN q i rd a off n = .next (s.wrote q rd v ((s.tq q).pc + 1)) := by
  unfold State.loadN State.onCore
  rw [if_pos h.1]
  dsimp only
  rw [State.issue_runs s q i _ _ h]
  rw [hl]
  dsimp only
  rw [State.goto_inside]
  · rfl
  · simpa [Thread.setReg_bank, State.inProgram] using hp

end Sys2Proof.Machine
end

