-- ==== Sys2Proof/Laws/Regs.lean ====
section
/-! SUPPORT. Laws of registers and their fields: a register copy reads back what was stored in it, a field reads back what
was put into it, and other registers and other fields stay. -/
namespace Sys2Proof.Machine

@[simp] theorem State.rd_wr_same (s : State) (r : Reg) (i j k : Nat) (v : W64) : (s.wr r i j k v).rd r i j k = v := by
  simp [State.wr, State.rd]

theorem State.rd_wr_other (s : State) (r r' : Reg) (i j k i' j' k' : Nat) (v : W64)
    (h : r.addr i j k ≠ r'.addr i' j' k') : (s.wr r i j k v).rd r' i' j' k' = s.rd r' i' j' k' := by
  simp [State.wr, State.rd, mgetD_msetD_other, h]

/-- What putting a number into a field of a register value gives, as a number. -/
theorem Fld.put_toNat (x : Fld) (v : W64) (n : Nat) (h1 : x.lo ≤ x.hi) (h2 : x.hi < 64) :
    (x.put v n).toNat = v.toNat - x.of v * 2 ^ x.lo + n % 2 ^ (x.hi + 1 - x.lo) * 2 ^ x.lo := by
  have hv := v.isLt
  unfold Fld.put Fld.of
  rw [Nat.shiftRight_eq_div_pow, BitVec.toNat_ofNat]
  apply Nat.mod_eq_of_lt
  have e64 : 2 ^ 64 = 2 ^ (63 - x.hi) * (2 ^ (x.hi + 1 - x.lo) * 2 ^ x.lo) := by
    rw [← Nat.pow_add, ← Nat.pow_add]; congr 1; omega
  generalize hA : 2 ^ (x.hi + 1 - x.lo) = A at *
  generalize hB : 2 ^ x.lo = B at *
  generalize hC : 2 ^ (63 - x.hi) = C at *
  have hApos : 0 < A := hA ▸ Nat.two_pow_pos _
  have hBpos : 0 < B := hB ▸ Nat.two_pow_pos _
  have q : v.toNat = (v.toNat / B / A * A + v.toNat / B % A) * B + v.toNat % B := by
    rw [Nat.mul_comm (v.toNat / B / A) A, Nat.div_add_mod, Nat.mul_comm, Nat.div_add_mod]
  have hhi : v.toNat / B / A < C := by
    rw [Nat.div_div_eq_div_mul, Nat.div_lt_iff_lt_mul (Nat.mul_pos hBpos hApos), Nat.mul_comm B A, ← e64]
    exact hv
  have hr : v.toNat % B < B := Nat.mod_lt _ hBpos
  have hn : n % A < A := Nat.mod_lt _ hApos
  generalize v.toNat / B / A = H at *
  generalize hM : v.toNat / B % A = M at *
  generalize v.toNat % B = R at *
  generalize n % A = N at *
  have h3 : v.toNat - M * B = H * A * B + R := by rw [q, Nat.add_mul]; omega
  rw [h3, e64]
  have h4 : (H + 1) * (A * B) ≤ C * (A * B) := Nat.mul_le_mul_right _ hhi
  have h5 : (N + 1) * B ≤ A * B := Nat.mul_le_mul_right _ hn
  rw [Nat.add_mul] at h4 h5
  rw [Nat.mul_assoc]
  omega

/-- A field reads back the number put into it, cut to its width. -/
theorem Fld.of_put (x : Fld) (v : W64) (n : Nat) (h1 : x.lo ≤ x.hi) (h2 : x.hi < 64) :
    x.of (x.put v n) = n % 2 ^ (x.hi + 1 - x.lo) := by
  rw [Fld.of, Fld.put_toNat x v n h1 h2]
  unfold Fld.of
  simp only [Nat.shiftRight_eq_div_pow]
  generalize hA : 2 ^ (x.hi + 1 - x.lo) = A
  generalize hB : 2 ^ x.lo = B
  have hBpos : 0 < B := hB ▸ Nat.two_pow_pos _
  have hApos : 0 < A := hA ▸ Nat.two_pow_pos _
  have q : v.toNat = (v.toNat / B / A * A + v.toNat / B % A) * B + v.toNat % B := by
    rw [Nat.mul_comm (v.toNat / B / A) A, Nat.div_add_mod, Nat.mul_comm, Nat.div_add_mod]
  have hr : v.toNat % B < B := Nat.mod_lt _ hBpos
  have hn : n % A < A := Nat.mod_lt _ hApos
  generalize v.toNat / B / A = H at *
  generalize hM : v.toNat / B % A = M at *
  generalize v.toNat % B = R at *
  generalize n % A = N at *
  have h3 : v.toNat - M * B + N * B = R + B * (H * A + N) := by
    rw [q, Nat.add_mul, Nat.mul_add, Nat.mul_comm B (H * A), Nat.mul_comm B N]; omega
  rw [h3, Nat.add_mul_div_left _ _ hBpos, Nat.div_eq_of_lt hr, Nat.zero_add, Nat.mul_comm, Nat.mul_add_mod,
    Nat.mod_eq_of_lt hn]

/-- A field above another keeps its number when the lower one is replaced. -/
theorem Fld.of_put_above (x y : Fld) (v : W64) (n : Nat) (h1 : x.lo ≤ x.hi) (h2 : x.hi < 64) (h : x.hi < y.lo) :
    y.of (x.put v n) = y.of v := by
  unfold Fld.of
  rw [Fld.put_toNat x v n h1 h2]
  unfold Fld.of
  simp only [Nat.shiftRight_eq_div_pow]
  have e : 2 ^ y.lo = 2 ^ x.lo * 2 ^ (x.hi + 1 - x.lo) * 2 ^ (y.lo - (x.hi + 1)) := by
    rw [← Nat.pow_add, ← Nat.pow_add]; congr 1; omega
  rw [e]
  generalize hA : 2 ^ (x.hi + 1 - x.lo) = A
  generalize hB : 2 ^ x.lo = B
  have hBpos : 0 < B := hB ▸ Nat.two_pow_pos _
  have hApos : 0 < A := hA ▸ Nat.two_pow_pos _
  congr 1
  rw [← Nat.div_div_eq_div_mul, ← Nat.div_div_eq_div_mul, ← Nat.div_div_eq_div_mul, ← Nat.div_div_eq_div_mul]
  congr 1
  have q : v.toNat = (v.toNat / B / A * A + v.toNat / B % A) * B + v.toNat % B := by
    rw [Nat.mul_comm (v.toNat / B / A) A, Nat.div_add_mod, Nat.mul_comm, Nat.div_add_mod]
  have hr : v.toNat % B < B := Nat.mod_lt _ hBpos
  have hn : n % A < A := Nat.mod_lt _ hApos
  generalize hH : v.toNat / B / A = H at *
  generalize hM : v.toNat / B % A = M at *
  generalize v.toNat % B = R at *
  generalize n % A = N at *
  have h3 : v.toNat - M * B + N * B = R + B * (N + A * H) := by
    rw [q, Nat.add_mul, Nat.mul_add, ← Nat.mul_assoc, Nat.mul_comm B A, Nat.mul_comm B N, Nat.mul_comm (A * B) H,
      ← Nat.mul_assoc]; omega
  rw [h3, Nat.add_mul_div_left _ _ hBpos, Nat.div_eq_of_lt hr, Nat.zero_add, Nat.add_mul_div_left _ _ hApos,
    Nat.div_eq_of_lt hn, Nat.zero_add]

/-- A field below another keeps its number when the upper one is replaced. -/
theorem Fld.of_put_below (x y : Fld) (v : W64) (n : Nat) (h1 : x.lo ≤ x.hi) (h2 : x.hi < 64) (hy : y.lo ≤ y.hi)
    (h : y.hi < x.lo) : y.of (x.put v n) = y.of v := by
  have h3 : (x.put v n).toNat % 2 ^ x.lo = v.toNat % 2 ^ x.lo := by
    rw [Fld.put_toNat x v n h1 h2]
    unfold Fld.of
    rw [Nat.shiftRight_eq_div_pow]
    generalize 2 ^ (x.hi + 1 - x.lo) = A
    generalize hB : 2 ^ x.lo = B
    have hBpos : 0 < B := hB ▸ Nat.two_pow_pos _
    have q : v.toNat = (v.toNat / B / A * A + v.toNat / B % A) * B + v.toNat % B := by
      rw [Nat.mul_comm (v.toNat / B / A) A, Nat.div_add_mod, Nat.mul_comm, Nat.div_add_mod]
    have hr : v.toNat % B < B := Nat.mod_lt _ hBpos
    generalize v.toNat / B / A = H at *
    generalize hM : v.toNat / B % A = M at *
    generalize hR : v.toNat % B = R at *
    have h3 : v.toNat - M * B + n % A * B = R + B * (H * A + n % A) := by
      rw [q, Nat.add_mul, Nat.mul_add, Nat.mul_comm B (H * A), Nat.mul_comm B (n % A)]; omega
    rw [h3, Nat.add_mul_mod_self_left, Nat.mod_eq_of_lt hr]
  have e : 2 ^ x.lo = 2 ^ y.lo * 2 ^ (y.hi + 1 - y.lo) * 2 ^ (x.lo - (y.hi + 1)) := by
    rw [← Nat.pow_add, ← Nat.pow_add]; congr 1; omega
  have key : ∀ w : Nat, w / 2 ^ y.lo % 2 ^ (y.hi + 1 - y.lo) = w % 2 ^ x.lo / 2 ^ y.lo % 2 ^ (y.hi + 1 - y.lo) := by
    intro w
    rw [e, Nat.mul_assoc, Nat.mod_mul_right_div_self, Nat.mod_mul_right_mod]
  unfold Fld.of
  simp only [Nat.shiftRight_eq_div_pow]
  rw [key (x.put v n).toNat, h3, ← key]

/-- A field of a register copy reads back the number stored in it, cut to its width. -/
theorem State.f_setF_same (s : State) (x : Fld) (n i j k : Nat) (h1 : x.lo ≤ x.hi) (h2 : x.hi < 64) :
    (s.setF x n i j k).f x i j k = n % 2 ^ (x.hi + 1 - x.lo) := by
  simp [State.setF, State.f, Fld.of_put x _ n h1 h2]

/-- Another field of the same register copy keeps its number. -/
theorem State.f_setF_field (s : State) (x y : Fld) (n i j k : Nat) (hr : y.r = x.r) (h1 : x.lo ≤ x.hi) (h2 : x.hi < 64)
    (hy : y.lo ≤ y.hi) (h : x.hi < y.lo ∨ y.hi < x.lo) : (s.setF x n i j k).f y i j k = s.f y i j k := by
  simp only [State.setF, State.f, hr, State.rd_wr_same]
  rcases h with h | h
  · exact Fld.of_put_above x y _ n h1 h2 h
  · exact Fld.of_put_below x y _ n h1 h2 hy h

/-- A field of another register copy keeps its number. -/
theorem State.f_setF_other (s : State) (x y : Fld) (n i j k i' j' k' : Nat)
    (h : x.r.addr i j k ≠ y.r.addr i' j' k') : (s.setF x n i j k).f y i' j' k' = s.f y i' j' k' := by
  simp only [State.setF, State.f]
  rw [State.rd_wr_other _ _ _ _ _ _ _ _ _ _ h]

end Sys2Proof.Machine
end

