-- ==== Sys2Proof/Laws/State.lean ====
section
/-! SUPPORT. Laws of State: what each of the small updates leaves of every part, true by unfolding, so that no proof
unfolds a record update. Each is (rfl): simp rewrites with it, and the kernel need not compare two updated states. -/
namespace Sys2Proof.Machine

/-! ### State.begin -/

@[simp] theorem State.begin_regs (s : State) : s.begin.regs = s.regs := (rfl)
@[simp] theorem State.begin_bus (s : State) : s.begin.bus = s.bus := (rfl)
@[simp] theorem State.begin_grp (s : State) : s.begin.grp = s.grp := (rfl)
@[simp] theorem State.begin_pica (s : State) : s.begin.pica = s.pica := (rfl)
@[simp] theorem State.begin_tb (s : State) : s.begin.tb = s.tb := (rfl)
@[simp] theorem State.begin_evt (s : State) : s.begin.evt = s.evt := (rfl)
@[simp] theorem State.begin_boot (s : State) : s.begin.boot = s.boot := (rfl)
@[simp] theorem State.begin_hst (s : State) : s.begin.hst = s.hst := (rfl)
@[simp] theorem State.begin_cnt (s : State) : s.begin.cnt = s.cnt := (rfl)
@[simp] theorem State.begin_pwr (s : State) : s.begin.pwr = s.pwr := (rfl)
@[simp] theorem State.begin_lne (s : State) : s.begin.lne = s.lne := (rfl)
@[simp] theorem State.begin_cry (s : State) : s.begin.cry = s.cry := (rfl)
@[simp] theorem State.begin_mka (s : State) : s.begin.mka = s.mka := (rfl)
@[simp] theorem State.begin_prs (s : State) : s.begin.prs = s.prs := (rfl)
@[simp] theorem State.begin_exm (s : State) : s.begin.exm = s.exm := (rfl)
@[simp] theorem State.begin_trn (s : State) : s.begin.trn = s.trn := (rfl)
@[simp] theorem State.begin_ppe (s : State) : s.begin.ppe = s.ppe := (rfl)
@[simp] theorem State.begin_buf (s : State) : s.begin.buf = s.buf := (rfl)
@[simp] theorem State.begin_hbm (s : State) : s.begin.hbm = s.hbm := (rfl)
@[simp] theorem State.begin_que (s : State) : s.begin.que = s.que := (rfl)
@[simp] theorem State.begin_fab (s : State) : s.begin.fab = s.fab := (rfl)
@[simp] theorem State.begin_cb (s : State) : s.begin.cb = s.cb := (rfl)
@[simp] theorem State.begin_twin (s : State) : s.begin.twin = s.twin := (rfl)
@[simp] theorem State.begin_red (s : State) : s.begin.red = s.red := (rfl)
@[simp] theorem State.begin_ret (s : State) : s.begin.ret = s.ret := (rfl)
@[simp] theorem State.begin_free (s : State) : s.begin.free = s.free := (rfl)
@[simp] theorem State.begin_pending (s : State) : s.begin.pending = s.pending := (rfl)

/-! ### State.emit -/

@[simp] theorem State.emit_regs (s : State) (o : Out) : (s.emit o).regs = s.regs := (rfl)
@[simp] theorem State.emit_bus (s : State) (o : Out) : (s.emit o).bus = s.bus := (rfl)
@[simp] theorem State.emit_grp (s : State) (o : Out) : (s.emit o).grp = s.grp := (rfl)
@[simp] theorem State.emit_pica (s : State) (o : Out) : (s.emit o).pica = s.pica := (rfl)
@[simp] theorem State.emit_tb (s : State) (o : Out) : (s.emit o).tb = s.tb := (rfl)
@[simp] theorem State.emit_evt (s : State) (o : Out) : (s.emit o).evt = s.evt := (rfl)
@[simp] theorem State.emit_boot (s : State) (o : Out) : (s.emit o).boot = s.boot := (rfl)
@[simp] theorem State.emit_hst (s : State) (o : Out) : (s.emit o).hst = s.hst := (rfl)
@[simp] theorem State.emit_cnt (s : State) (o : Out) : (s.emit o).cnt = s.cnt := (rfl)
@[simp] theorem State.emit_pwr (s : State) (o : Out) : (s.emit o).pwr = s.pwr := (rfl)
@[simp] theorem State.emit_lne (s : State) (o : Out) : (s.emit o).lne = s.lne := (rfl)
@[simp] theorem State.emit_cry (s : State) (o : Out) : (s.emit o).cry = s.cry := (rfl)
@[simp] theorem State.emit_mka (s : State) (o : Out) : (s.emit o).mka = s.mka := (rfl)
@[simp] theorem State.emit_prs (s : State) (o : Out) : (s.emit o).prs = s.prs := (rfl)
@[simp] theorem State.emit_exm (s : State) (o : Out) : (s.emit o).exm = s.exm := (rfl)
@[simp] theorem State.emit_trn (s : State) (o : Out) : (s.emit o).trn = s.trn := (rfl)
@[simp] theorem State.emit_ppe (s : State) (o : Out) : (s.emit o).ppe = s.ppe := (rfl)
@[simp] theorem State.emit_buf (s : State) (o : Out) : (s.emit o).buf = s.buf := (rfl)
@[simp] theorem State.emit_hbm (s : State) (o : Out) : (s.emit o).hbm = s.hbm := (rfl)
@[simp] theorem State.emit_que (s : State) (o : Out) : (s.emit o).que = s.que := (rfl)
@[simp] theorem State.emit_fab (s : State) (o : Out) : (s.emit o).fab = s.fab := (rfl)
@[simp] theorem State.emit_cb (s : State) (o : Out) : (s.emit o).cb = s.cb := (rfl)
@[simp] theorem State.emit_twin (s : State) (o : Out) : (s.emit o).twin = s.twin := (rfl)
@[simp] theorem State.emit_red (s : State) (o : Out) : (s.emit o).red = s.red := (rfl)
@[simp] theorem State.emit_ret (s : State) (o : Out) : (s.emit o).ret = s.ret := (rfl)
@[simp] theorem State.emit_free (s : State) (o : Out) : (s.emit o).free = s.free := (rfl)
@[simp] theorem State.emit_pending (s : State) (o : Out) : (s.emit o).pending = s.pending := (rfl)

/-! ### State.wr -/

@[simp] theorem State.wr_bus (s : State) (r : Reg) (i j k : Nat) (v : W64) : (s.wr r i j k v).bus = s.bus := (rfl)
@[simp] theorem State.wr_grp (s : State) (r : Reg) (i j k : Nat) (v : W64) : (s.wr r i j k v).grp = s.grp := (rfl)
@[simp] theorem State.wr_pica (s : State) (r : Reg) (i j k : Nat) (v : W64) : (s.wr r i j k v).pica = s.pica := (rfl)
@[simp] theorem State.wr_tb (s : State) (r : Reg) (i j k : Nat) (v : W64) : (s.wr r i j k v).tb = s.tb := (rfl)
@[simp] theorem State.wr_evt (s : State) (r : Reg) (i j k : Nat) (v : W64) : (s.wr r i j k v).evt = s.evt := (rfl)
@[simp] theorem State.wr_boot (s : State) (r : Reg) (i j k : Nat) (v : W64) : (s.wr r i j k v).boot = s.boot := (rfl)
@[simp] theorem State.wr_hst (s : State) (r : Reg) (i j k : Nat) (v : W64) : (s.wr r i j k v).hst = s.hst := (rfl)
@[simp] theorem State.wr_cnt (s : State) (r : Reg) (i j k : Nat) (v : W64) : (s.wr r i j k v).cnt = s.cnt := (rfl)
@[simp] theorem State.wr_pwr (s : State) (r : Reg) (i j k : Nat) (v : W64) : (s.wr r i j k v).pwr = s.pwr := (rfl)
@[simp] theorem State.wr_lne (s : State) (r : Reg) (i j k : Nat) (v : W64) : (s.wr r i j k v).lne = s.lne := (rfl)
@[simp] theorem State.wr_cry (s : State) (r : Reg) (i j k : Nat) (v : W64) : (s.wr r i j k v).cry = s.cry := (rfl)
@[simp] theorem State.wr_mka (s : State) (r : Reg) (i j k : Nat) (v : W64) : (s.wr r i j k v).mka = s.mka := (rfl)
@[simp] theorem State.wr_prs (s : State) (r : Reg) (i j k : Nat) (v : W64) : (s.wr r i j k v).prs = s.prs := (rfl)
@[simp] theorem State.wr_exm (s : State) (r : Reg) (i j k : Nat) (v : W64) : (s.wr r i j k v).exm = s.exm := (rfl)
@[simp] theorem State.wr_trn (s : State) (r : Reg) (i j k : Nat) (v : W64) : (s.wr r i j k v).trn = s.trn := (rfl)
@[simp] theorem State.wr_ppe (s : State) (r : Reg) (i j k : Nat) (v : W64) : (s.wr r i j k v).ppe = s.ppe := (rfl)
@[simp] theorem State.wr_buf (s : State) (r : Reg) (i j k : Nat) (v : W64) : (s.wr r i j k v).buf = s.buf := (rfl)
@[simp] theorem State.wr_hbm (s : State) (r : Reg) (i j k : Nat) (v : W64) : (s.wr r i j k v).hbm = s.hbm := (rfl)
@[simp] theorem State.wr_que (s : State) (r : Reg) (i j k : Nat) (v : W64) : (s.wr r i j k v).que = s.que := (rfl)
@[simp] theorem State.wr_fab (s : State) (r : Reg) (i j k : Nat) (v : W64) : (s.wr r i j k v).fab = s.fab := (rfl)
@[simp] theorem State.wr_cb (s : State) (r : Reg) (i j k : Nat) (v : W64) : (s.wr r i j k v).cb = s.cb := (rfl)
@[simp] theorem State.wr_twin (s : State) (r : Reg) (i j k : Nat) (v : W64) : (s.wr r i j k v).twin = s.twin := (rfl)
@[simp] theorem State.wr_red (s : State) (r : Reg) (i j k : Nat) (v : W64) : (s.wr r i j k v).red = s.red := (rfl)
@[simp] theorem State.wr_ret (s : State) (r : Reg) (i j k : Nat) (v : W64) : (s.wr r i j k v).ret = s.ret := (rfl)
@[simp] theorem State.wr_free (s : State) (r : Reg) (i j k : Nat) (v : W64) : (s.wr r i j k v).free = s.free := (rfl)
@[simp] theorem State.wr_out (s : State) (r : Reg) (i j k : Nat) (v : W64) : (s.wr r i j k v).out = s.out := (rfl)
@[simp] theorem State.wr_pending (s : State) (r : Reg) (i j k : Nat) (v : W64) : (s.wr r i j k v).pending = s.pending := (rfl)

/-! ### State.setF -/

@[simp] theorem State.setF_bus (s : State) (x : Fld) (v i j k : Nat) : (s.setF x v i j k).bus = s.bus := (rfl)
@[simp] theorem State.setF_grp (s : State) (x : Fld) (v i j k : Nat) : (s.setF x v i j k).grp = s.grp := (rfl)
@[simp] theorem State.setF_pica (s : State) (x : Fld) (v i j k : Nat) : (s.setF x v i j k).pica = s.pica := (rfl)
@[simp] theorem State.setF_tb (s : State) (x : Fld) (v i j k : Nat) : (s.setF x v i j k).tb = s.tb := (rfl)
@[simp] theorem State.setF_evt (s : State) (x : Fld) (v i j k : Nat) : (s.setF x v i j k).evt = s.evt := (rfl)
@[simp] theorem State.setF_boot (s : State) (x : Fld) (v i j k : Nat) : (s.setF x v i j k).boot = s.boot := (rfl)
@[simp] theorem State.setF_hst (s : State) (x : Fld) (v i j k : Nat) : (s.setF x v i j k).hst = s.hst := (rfl)
@[simp] theorem State.setF_cnt (s : State) (x : Fld) (v i j k : Nat) : (s.setF x v i j k).cnt = s.cnt := (rfl)
@[simp] theorem State.setF_pwr (s : State) (x : Fld) (v i j k : Nat) : (s.setF x v i j k).pwr = s.pwr := (rfl)
@[simp] theorem State.setF_lne (s : State) (x : Fld) (v i j k : Nat) : (s.setF x v i j k).lne = s.lne := (rfl)
@[simp] theorem State.setF_cry (s : State) (x : Fld) (v i j k : Nat) : (s.setF x v i j k).cry = s.cry := (rfl)
@[simp] theorem State.setF_mka (s : State) (x : Fld) (v i j k : Nat) : (s.setF x v i j k).mka = s.mka := (rfl)
@[simp] theorem State.setF_prs (s : State) (x : Fld) (v i j k : Nat) : (s.setF x v i j k).prs = s.prs := (rfl)
@[simp] theorem State.setF_exm (s : State) (x : Fld) (v i j k : Nat) : (s.setF x v i j k).exm = s.exm := (rfl)
@[simp] theorem State.setF_trn (s : State) (x : Fld) (v i j k : Nat) : (s.setF x v i j k).trn = s.trn := (rfl)
@[simp] theorem State.setF_ppe (s : State) (x : Fld) (v i j k : Nat) : (s.setF x v i j k).ppe = s.ppe := (rfl)
@[simp] theorem State.setF_buf (s : State) (x : Fld) (v i j k : Nat) : (s.setF x v i j k).buf = s.buf := (rfl)
@[simp] theorem State.setF_hbm (s : State) (x : Fld) (v i j k : Nat) : (s.setF x v i j k).hbm = s.hbm := (rfl)
@[simp] theorem State.setF_que (s : State) (x : Fld) (v i j k : Nat) : (s.setF x v i j k).que = s.que := (rfl)
@[simp] theorem State.setF_fab (s : State) (x : Fld) (v i j k : Nat) : (s.setF x v i j k).fab = s.fab := (rfl)
@[simp] theorem State.setF_cb (s : State) (x : Fld) (v i j k : Nat) : (s.setF x v i j k).cb = s.cb := (rfl)
@[simp] theorem State.setF_twin (s : State) (x : Fld) (v i j k : Nat) : (s.setF x v i j k).twin = s.twin := (rfl)
@[simp] theorem State.setF_red (s : State) (x : Fld) (v i j k : Nat) : (s.setF x v i j k).red = s.red := (rfl)
@[simp] theorem State.setF_ret (s : State) (x : Fld) (v i j k : Nat) : (s.setF x v i j k).ret = s.ret := (rfl)
@[simp] theorem State.setF_free (s : State) (x : Fld) (v i j k : Nat) : (s.setF x v i j k).free = s.free := (rfl)
@[simp] theorem State.setF_out (s : State) (x : Fld) (v i j k : Nat) : (s.setF x v i j k).out = s.out := (rfl)
@[simp] theorem State.setF_pending (s : State) (x : Fld) (v i j k : Nat) : (s.setF x v i j k).pending = s.pending := (rfl)

/-! ### State.sat -/

@[simp] theorem State.sat_bus (s : State) (x : Fld) (v i j k : Nat) : (s.sat x v i j k).bus = s.bus := (rfl)
@[simp] theorem State.sat_grp (s : State) (x : Fld) (v i j k : Nat) : (s.sat x v i j k).grp = s.grp := (rfl)
@[simp] theorem State.sat_pica (s : State) (x : Fld) (v i j k : Nat) : (s.sat x v i j k).pica = s.pica := (rfl)
@[simp] theorem State.sat_tb (s : State) (x : Fld) (v i j k : Nat) : (s.sat x v i j k).tb = s.tb := (rfl)
@[simp] theorem State.sat_evt (s : State) (x : Fld) (v i j k : Nat) : (s.sat x v i j k).evt = s.evt := (rfl)
@[simp] theorem State.sat_boot (s : State) (x : Fld) (v i j k : Nat) : (s.sat x v i j k).boot = s.boot := (rfl)
@[simp] theorem State.sat_hst (s : State) (x : Fld) (v i j k : Nat) : (s.sat x v i j k).hst = s.hst := (rfl)
@[simp] theorem State.sat_cnt (s : State) (x : Fld) (v i j k : Nat) : (s.sat x v i j k).cnt = s.cnt := (rfl)
@[simp] theorem State.sat_pwr (s : State) (x : Fld) (v i j k : Nat) : (s.sat x v i j k).pwr = s.pwr := (rfl)
@[simp] theorem State.sat_lne (s : State) (x : Fld) (v i j k : Nat) : (s.sat x v i j k).lne = s.lne := (rfl)
@[simp] theorem State.sat_cry (s : State) (x : Fld) (v i j k : Nat) : (s.sat x v i j k).cry = s.cry := (rfl)
@[simp] theorem State.sat_mka (s : State) (x : Fld) (v i j k : Nat) : (s.sat x v i j k).mka = s.mka := (rfl)
@[simp] theorem State.sat_prs (s : State) (x : Fld) (v i j k : Nat) : (s.sat x v i j k).prs = s.prs := (rfl)
@[simp] theorem State.sat_exm (s : State) (x : Fld) (v i j k : Nat) : (s.sat x v i j k).exm = s.exm := (rfl)
@[simp] theorem State.sat_trn (s : State) (x : Fld) (v i j k : Nat) : (s.sat x v i j k).trn = s.trn := (rfl)
@[simp] theorem State.sat_ppe (s : State) (x : Fld) (v i j k : Nat) : (s.sat x v i j k).ppe = s.ppe := (rfl)
@[simp] theorem State.sat_buf (s : State) (x : Fld) (v i j k : Nat) : (s.sat x v i j k).buf = s.buf := (rfl)
@[simp] theorem State.sat_hbm (s : State) (x : Fld) (v i j k : Nat) : (s.sat x v i j k).hbm = s.hbm := (rfl)
@[simp] theorem State.sat_que (s : State) (x : Fld) (v i j k : Nat) : (s.sat x v i j k).que = s.que := (rfl)
@[simp] theorem State.sat_fab (s : State) (x : Fld) (v i j k : Nat) : (s.sat x v i j k).fab = s.fab := (rfl)
@[simp] theorem State.sat_cb (s : State) (x : Fld) (v i j k : Nat) : (s.sat x v i j k).cb = s.cb := (rfl)
@[simp] theorem State.sat_twin (s : State) (x : Fld) (v i j k : Nat) : (s.sat x v i j k).twin = s.twin := (rfl)
@[simp] theorem State.sat_red (s : State) (x : Fld) (v i j k : Nat) : (s.sat x v i j k).red = s.red := (rfl)
@[simp] theorem State.sat_ret (s : State) (x : Fld) (v i j k : Nat) : (s.sat x v i j k).ret = s.ret := (rfl)
@[simp] theorem State.sat_free (s : State) (x : Fld) (v i j k : Nat) : (s.sat x v i j k).free = s.free := (rfl)
@[simp] theorem State.sat_out (s : State) (x : Fld) (v i j k : Nat) : (s.sat x v i j k).out = s.out := (rfl)
@[simp] theorem State.sat_pending (s : State) (x : Fld) (v i j k : Nat) : (s.sat x v i j k).pending = s.pending := (rfl)

/-! ### State.post -/

@[simp] theorem State.post_regs (s : State) (a b : Nat) (l : List Nat) : (s.post a b l).regs = s.regs := (rfl)
@[simp] theorem State.post_bus (s : State) (a b : Nat) (l : List Nat) : (s.post a b l).bus = s.bus := (rfl)
@[simp] theorem State.post_grp (s : State) (a b : Nat) (l : List Nat) : (s.post a b l).grp = s.grp := (rfl)
@[simp] theorem State.post_pica (s : State) (a b : Nat) (l : List Nat) : (s.post a b l).pica = s.pica := (rfl)
@[simp] theorem State.post_tb (s : State) (a b : Nat) (l : List Nat) : (s.post a b l).tb = s.tb := (rfl)
@[simp] theorem State.post_evt (s : State) (a b : Nat) (l : List Nat) : (s.post a b l).evt = s.evt := (rfl)
@[simp] theorem State.post_boot (s : State) (a b : Nat) (l : List Nat) : (s.post a b l).boot = s.boot := (rfl)
@[simp] theorem State.post_hst (s : State) (a b : Nat) (l : List Nat) : (s.post a b l).hst = s.hst := (rfl)
@[simp] theorem State.post_pwr (s : State) (a b : Nat) (l : List Nat) : (s.post a b l).pwr = s.pwr := (rfl)
@[simp] theorem State.post_lne (s : State) (a b : Nat) (l : List Nat) : (s.post a b l).lne = s.lne := (rfl)
@[simp] theorem State.post_cry (s : State) (a b : Nat) (l : List Nat) : (s.post a b l).cry = s.cry := (rfl)
@[simp] theorem State.post_mka (s : State) (a b : Nat) (l : List Nat) : (s.post a b l).mka = s.mka := (rfl)
@[simp] theorem State.post_prs (s : State) (a b : Nat) (l : List Nat) : (s.post a b l).prs = s.prs := (rfl)
@[simp] theorem State.post_exm (s : State) (a b : Nat) (l : List Nat) : (s.post a b l).exm = s.exm := (rfl)
@[simp] theorem State.post_trn (s : State) (a b : Nat) (l : List Nat) : (s.post a b l).trn = s.trn := (rfl)
@[simp] theorem State.post_ppe (s : State) (a b : Nat) (l : List Nat) : (s.post a b l).ppe = s.ppe := (rfl)
@[simp] theorem State.post_buf (s : State) (a b : Nat) (l : List Nat) : (s.post a b l).buf = s.buf := (rfl)
@[simp] theorem State.post_hbm (s : State) (a b : Nat) (l : List Nat) : (s.post a b l).hbm = s.hbm := (rfl)
@[simp] theorem State.post_que (s : State) (a b : Nat) (l : List Nat) : (s.post a b l).que = s.que := (rfl)
@[simp] theorem State.post_fab (s : State) (a b : Nat) (l : List Nat) : (s.post a b l).fab = s.fab := (rfl)
@[simp] theorem State.post_cb (s : State) (a b : Nat) (l : List Nat) : (s.post a b l).cb = s.cb := (rfl)
@[simp] theorem State.post_twin (s : State) (a b : Nat) (l : List Nat) : (s.post a b l).twin = s.twin := (rfl)
@[simp] theorem State.post_red (s : State) (a b : Nat) (l : List Nat) : (s.post a b l).red = s.red := (rfl)
@[simp] theorem State.post_ret (s : State) (a b : Nat) (l : List Nat) : (s.post a b l).ret = s.ret := (rfl)
@[simp] theorem State.post_free (s : State) (a b : Nat) (l : List Nat) : (s.post a b l).free = s.free := (rfl)
@[simp] theorem State.post_out (s : State) (a b : Nat) (l : List Nat) : (s.post a b l).out = s.out := (rfl)
@[simp] theorem State.post_pending (s : State) (a b : Nat) (l : List Nat) : (s.post a b l).pending = s.pending := (rfl)

/-! ### State.setTh -/

@[simp] theorem State.setTh_regs (s : State) (n : Nat) (t : Thread) : (s.setTh n t).regs = s.regs := (rfl)
@[simp] theorem State.setTh_bus (s : State) (n : Nat) (t : Thread) : (s.setTh n t).bus = s.bus := (rfl)
@[simp] theorem State.setTh_grp (s : State) (n : Nat) (t : Thread) : (s.setTh n t).grp = s.grp := (rfl)
@[simp] theorem State.setTh_pica (s : State) (n : Nat) (t : Thread) : (s.setTh n t).pica = s.pica := (rfl)
@[simp] theorem State.setTh_tb (s : State) (n : Nat) (t : Thread) : (s.setTh n t).tb = s.tb := (rfl)
@[simp] theorem State.setTh_evt (s : State) (n : Nat) (t : Thread) : (s.setTh n t).evt = s.evt := (rfl)
@[simp] theorem State.setTh_boot (s : State) (n : Nat) (t : Thread) : (s.setTh n t).boot = s.boot := (rfl)
@[simp] theorem State.setTh_hst (s : State) (n : Nat) (t : Thread) : (s.setTh n t).hst = s.hst := (rfl)
@[simp] theorem State.setTh_cnt (s : State) (n : Nat) (t : Thread) : (s.setTh n t).cnt = s.cnt := (rfl)
@[simp] theorem State.setTh_pwr (s : State) (n : Nat) (t : Thread) : (s.setTh n t).pwr = s.pwr := (rfl)
@[simp] theorem State.setTh_lne (s : State) (n : Nat) (t : Thread) : (s.setTh n t).lne = s.lne := (rfl)
@[simp] theorem State.setTh_cry (s : State) (n : Nat) (t : Thread) : (s.setTh n t).cry = s.cry := (rfl)
@[simp] theorem State.setTh_mka (s : State) (n : Nat) (t : Thread) : (s.setTh n t).mka = s.mka := (rfl)
@[simp] theorem State.setTh_prs (s : State) (n : Nat) (t : Thread) : (s.setTh n t).prs = s.prs := (rfl)
@[simp] theorem State.setTh_exm (s : State) (n : Nat) (t : Thread) : (s.setTh n t).exm = s.exm := (rfl)
@[simp] theorem State.setTh_trn (s : State) (n : Nat) (t : Thread) : (s.setTh n t).trn = s.trn := (rfl)
@[simp] theorem State.setTh_buf (s : State) (n : Nat) (t : Thread) : (s.setTh n t).buf = s.buf := (rfl)
@[simp] theorem State.setTh_hbm (s : State) (n : Nat) (t : Thread) : (s.setTh n t).hbm = s.hbm := (rfl)
@[simp] theorem State.setTh_que (s : State) (n : Nat) (t : Thread) : (s.setTh n t).que = s.que := (rfl)
@[simp] theorem State.setTh_fab (s : State) (n : Nat) (t : Thread) : (s.setTh n t).fab = s.fab := (rfl)
@[simp] theorem State.setTh_cb (s : State) (n : Nat) (t : Thread) : (s.setTh n t).cb = s.cb := (rfl)
@[simp] theorem State.setTh_twin (s : State) (n : Nat) (t : Thread) : (s.setTh n t).twin = s.twin := (rfl)
@[simp] theorem State.setTh_red (s : State) (n : Nat) (t : Thread) : (s.setTh n t).red = s.red := (rfl)
@[simp] theorem State.setTh_ret (s : State) (n : Nat) (t : Thread) : (s.setTh n t).ret = s.ret := (rfl)
@[simp] theorem State.setTh_free (s : State) (n : Nat) (t : Thread) : (s.setTh n t).free = s.free := (rfl)
@[simp] theorem State.setTh_out (s : State) (n : Nat) (t : Thread) : (s.setTh n t).out = s.out := (rfl)
@[simp] theorem State.setTh_pending (s : State) (n : Nat) (t : Thread) : (s.setTh n t).pending = s.pending := (rfl)

/-! ### State.setWq -/

@[simp] theorem State.setWq_regs (s : State) (q : Nat) (x : WorkQueue) : (s.setWq q x).regs = s.regs := (rfl)
@[simp] theorem State.setWq_bus (s : State) (q : Nat) (x : WorkQueue) : (s.setWq q x).bus = s.bus := (rfl)
@[simp] theorem State.setWq_grp (s : State) (q : Nat) (x : WorkQueue) : (s.setWq q x).grp = s.grp := (rfl)
@[simp] theorem State.setWq_pica (s : State) (q : Nat) (x : WorkQueue) : (s.setWq q x).pica = s.pica := (rfl)
@[simp] theorem State.setWq_tb (s : State) (q : Nat) (x : WorkQueue) : (s.setWq q x).tb = s.tb := (rfl)
@[simp] theorem State.setWq_evt (s : State) (q : Nat) (x : WorkQueue) : (s.setWq q x).evt = s.evt := (rfl)
@[simp] theorem State.setWq_boot (s : State) (q : Nat) (x : WorkQueue) : (s.setWq q x).boot = s.boot := (rfl)
@[simp] theorem State.setWq_cnt (s : State) (q : Nat) (x : WorkQueue) : (s.setWq q x).cnt = s.cnt := (rfl)
@[simp] theorem State.setWq_pwr (s : State) (q : Nat) (x : WorkQueue) : (s.setWq q x).pwr = s.pwr := (rfl)
@[simp] theorem State.setWq_lne (s : State) (q : Nat) (x : WorkQueue) : (s.setWq q x).lne = s.lne := (rfl)
@[simp] theorem State.setWq_cry (s : State) (q : Nat) (x : WorkQueue) : (s.setWq q x).cry = s.cry := (rfl)
@[simp] theorem State.setWq_mka (s : State) (q : Nat) (x : WorkQueue) : (s.setWq q x).mka = s.mka := (rfl)
@[simp] theorem State.setWq_prs (s : State) (q : Nat) (x : WorkQueue) : (s.setWq q x).prs = s.prs := (rfl)
@[simp] theorem State.setWq_exm (s : State) (q : Nat) (x : WorkQueue) : (s.setWq q x).exm = s.exm := (rfl)
@[simp] theorem State.setWq_trn (s : State) (q : Nat) (x : WorkQueue) : (s.setWq q x).trn = s.trn := (rfl)
@[simp] theorem State.setWq_ppe (s : State) (q : Nat) (x : WorkQueue) : (s.setWq q x).ppe = s.ppe := (rfl)
@[simp] theorem State.setWq_buf (s : State) (q : Nat) (x : WorkQueue) : (s.setWq q x).buf = s.buf := (rfl)
@[simp] theorem State.setWq_hbm (s : State) (q : Nat) (x : WorkQueue) : (s.setWq q x).hbm = s.hbm := (rfl)
@[simp] theorem State.setWq_que (s : State) (q : Nat) (x : WorkQueue) : (s.setWq q x).que = s.que := (rfl)
@[simp] theorem State.setWq_fab (s : State) (q : Nat) (x : WorkQueue) : (s.setWq q x).fab = s.fab := (rfl)
@[simp] theorem State.setWq_cb (s : State) (q : Nat) (x : WorkQueue) : (s.setWq q x).cb = s.cb := (rfl)
@[simp] theorem State.setWq_twin (s : State) (q : Nat) (x : WorkQueue) : (s.setWq q x).twin = s.twin := (rfl)
@[simp] theorem State.setWq_red (s : State) (q : Nat) (x : WorkQueue) : (s.setWq q x).red = s.red := (rfl)
@[simp] theorem State.setWq_ret (s : State) (q : Nat) (x : WorkQueue) : (s.setWq q x).ret = s.ret := (rfl)
@[simp] theorem State.setWq_free (s : State) (q : Nat) (x : WorkQueue) : (s.setWq q x).free = s.free := (rfl)
@[simp] theorem State.setWq_out (s : State) (q : Nat) (x : WorkQueue) : (s.setWq q x).out = s.out := (rfl)
@[simp] theorem State.setWq_pending (s : State) (q : Nat) (x : WorkQueue) : (s.setWq q x).pending = s.pending := (rfl)

/-! ### State.setRow -/

@[simp] theorem State.setRow_regs (s : State) (r : Nat) (x : TdRow) : (s.setRow r x).regs = s.regs := (rfl)
@[simp] theorem State.setRow_bus (s : State) (r : Nat) (x : TdRow) : (s.setRow r x).bus = s.bus := (rfl)
@[simp] theorem State.setRow_grp (s : State) (r : Nat) (x : TdRow) : (s.setRow r x).grp = s.grp := (rfl)
@[simp] theorem State.setRow_pica (s : State) (r : Nat) (x : TdRow) : (s.setRow r x).pica = s.pica := (rfl)
@[simp] theorem State.setRow_tb (s : State) (r : Nat) (x : TdRow) : (s.setRow r x).tb = s.tb := (rfl)
@[simp] theorem State.setRow_evt (s : State) (r : Nat) (x : TdRow) : (s.setRow r x).evt = s.evt := (rfl)
@[simp] theorem State.setRow_boot (s : State) (r : Nat) (x : TdRow) : (s.setRow r x).boot = s.boot := (rfl)
@[simp] theorem State.setRow_hst (s : State) (r : Nat) (x : TdRow) : (s.setRow r x).hst = s.hst := (rfl)
@[simp] theorem State.setRow_cnt (s : State) (r : Nat) (x : TdRow) : (s.setRow r x).cnt = s.cnt := (rfl)
@[simp] theorem State.setRow_pwr (s : State) (r : Nat) (x : TdRow) : (s.setRow r x).pwr = s.pwr := (rfl)
@[simp] theorem State.setRow_lne (s : State) (r : Nat) (x : TdRow) : (s.setRow r x).lne = s.lne := (rfl)
@[simp] theorem State.setRow_cry (s : State) (r : Nat) (x : TdRow) : (s.setRow r x).cry = s.cry := (rfl)
@[simp] theorem State.setRow_mka (s : State) (r : Nat) (x : TdRow) : (s.setRow r x).mka = s.mka := (rfl)
@[simp] theorem State.setRow_prs (s : State) (r : Nat) (x : TdRow) : (s.setRow r x).prs = s.prs := (rfl)
@[simp] theorem State.setRow_exm (s : State) (r : Nat) (x : TdRow) : (s.setRow r x).exm = s.exm := (rfl)
@[simp] theorem State.setRow_ppe (s : State) (r : Nat) (x : TdRow) : (s.setRow r x).ppe = s.ppe := (rfl)
@[simp] theorem State.setRow_buf (s : State) (r : Nat) (x : TdRow) : (s.setRow r x).buf = s.buf := (rfl)
@[simp] theorem State.setRow_hbm (s : State) (r : Nat) (x : TdRow) : (s.setRow r x).hbm = s.hbm := (rfl)
@[simp] theorem State.setRow_que (s : State) (r : Nat) (x : TdRow) : (s.setRow r x).que = s.que := (rfl)
@[simp] theorem State.setRow_fab (s : State) (r : Nat) (x : TdRow) : (s.setRow r x).fab = s.fab := (rfl)
@[simp] theorem State.setRow_cb (s : State) (r : Nat) (x : TdRow) : (s.setRow r x).cb = s.cb := (rfl)
@[simp] theorem State.setRow_twin (s : State) (r : Nat) (x : TdRow) : (s.setRow r x).twin = s.twin := (rfl)
@[simp] theorem State.setRow_red (s : State) (r : Nat) (x : TdRow) : (s.setRow r x).red = s.red := (rfl)
@[simp] theorem State.setRow_ret (s : State) (r : Nat) (x : TdRow) : (s.setRow r x).ret = s.ret := (rfl)
@[simp] theorem State.setRow_free (s : State) (r : Nat) (x : TdRow) : (s.setRow r x).free = s.free := (rfl)
@[simp] theorem State.setRow_out (s : State) (r : Nat) (x : TdRow) : (s.setRow r x).out = s.out := (rfl)
@[simp] theorem State.setRow_pending (s : State) (r : Nat) (x : TdRow) : (s.setRow r x).pending = s.pending := (rfl)

@[simp] theorem State.begin_out (s : State) : s.begin.out = [] := rfl
@[simp] theorem State.emit_out (s : State) (o : Out) : (s.emit o).out = s.out ++ [o] := rfl
@[simp] theorem State.post_posts (s : State) (a b : Nat) (l : List Nat) :
    (s.post a b l).cnt.posts = s.cnt.posts ++ [⟨statKey a b, l, s.pica.num⟩] := rfl
@[simp] theorem State.begin_rd (s : State) (r : Reg) (i j k : Nat) : s.begin.rd r i j k = s.rd r i j k := rfl
@[simp] theorem State.begin_f (s : State) (x : Fld) (i j k : Nat) : s.begin.f x i j k = s.f x i j k := rfl
@[simp] theorem State.begin_fb (s : State) (x : Fld) (i j k : Nat) : s.begin.fb x i j k = s.fb x i j k := rfl
@[simp] theorem State.begin_coreRuns (s : State) : s.begin.coreRuns = s.coreRuns := rfl
@[simp] theorem State.begin_mgmt (s : State) : s.begin.mgmt = s.mgmt := rfl

end Sys2Proof.Machine
end

