-- ==== Sys2Proof/Laws/Ops.lean ====
section
/-! SUPPORT. Laws of the shared operations: where a command acts at all, what raising an event, counting a drop and completing
a work-queue entry change, and how a command of a queue begins. -/
namespace Sys2Proof.Machine

/-! ### Where a command acts -/

theorem State.onCore_runs (s : State) (f : State → State) (h : s.coreRuns = true) : s.onCore f = .next (f s.begin) := by
  simp [State.onCore, h]

theorem State.onCore_held (s : State) (f : State → State) (h : s.coreRuns = false) : s.onCore f = .next s.begin := by
  simp [State.onCore, h]

theorem State.onMgmt_runs (s : State) (f : State → State) (h : s.mgmt = true) : s.onMgmt f = .next (f s.begin) := by
  simp [State.onMgmt, h]

theorem State.onMgmt_held (s : State) (f : State → State) (h : s.mgmt = false) : s.onMgmt f = .next s.begin := by
  simp [State.onMgmt, h]

/-! ### Events -/

/-- Raising an event changes the event crossings alone (R35). -/
theorem State.raiseD_same (s : State) (n : Nat) (d : W64) :
    s.raiseD n d = { s with evt := { s.evt with xing := (s.raiseD n d).evt.xing } } := by
  unfold State.raiseD
  split <;> rfl

/-- An event of a source that exists is on its way once it is raised (R35, R380). -/
theorem State.raiseD_raised (s : State) (n : Nat) (d : W64) (h : reservedSource n = false) :
    (s.raiseD n d).raised n = true := by
  simp [State.raiseD, h, State.raised]

/-- Raising one source leaves the others. -/
theorem State.raiseD_other (s : State) (n m : Nat) (d : W64) (h : n ≠ m) :
    mget (s.raiseD n d).evt.xing m = mget s.evt.xing m := by
  unfold State.raiseD
  split
  · rfl
  · simp [mget_mset, h]

@[simp] theorem State.raiseD_regs (s : State) (n : Nat) (d : W64) : (s.raiseD n d).regs = s.regs := by
  rw [State.raiseD_same]

@[simp] theorem State.raise_regs (s : State) (n : Nat) : (s.raise n).regs = s.regs := State.raiseD_regs s n 0

/-- Refusing a write changes CFG_ERR's register and the event crossings alone. -/
theorem State.cfgErr_same (s : State) (x : Fld) (n i j : Nat) :
    s.cfgErr x n i j = { s with regs := (s.cfgErr x n i j).regs, evt := (s.cfgErr x n i j).evt } := by
  unfold State.cfgErr
  split
  · rfl
  · rw [State.raise, State.raiseD_same]
    rfl

/-! ### Drops -/

/-- Counting a drop changes CNT_DROP_TOTAL and the posted updates alone (R16, R385). -/
theorem State.drop_same (s : State) (code len p side : Nat) :
    s.drop code len p side = { s with regs := (s.drop code len p side).regs, cnt := (s.drop code len p side).cnt } := by
  unfold State.drop
  simp only []
  split <;> rfl

theorem State.drop_total (s : State) (code len p side : Nat) :
    (s.drop code len p side).rd .CNT_DROP_TOTAL 0 0 0 = s.rd .CNT_DROP_TOTAL 0 0 0 + 1 := by
  unfold State.drop
  simp only []
  split
  · exact State.rd_wr_same _ _ _ _ _ _
  · exact State.rd_wr_same _ _ _ _ _ _

theorem State.drop_posts (s : State) (code len p side : Nat) :
    (s.drop code len p side).cnt.posts = s.cnt.posts ++ [⟨statKey spReason code, [1, len + 4], s.pica.num⟩] ++
      (if p < 128 then [⟨statKey spPort (2 * p + side), [0, 0, 1, len + 4], s.pica.num⟩] else []) := by
  unfold State.drop
  simp only []
  split
  · rfl
  · simp

/-! ### Work queues -/

theorem State.cqRoom_congr (s t : State) (c n : Nat) (h1 : s.regs = t.regs) (h2 : s.hst = t.hst) :
    s.cqRoom c n = t.cqRoom c n := by
  unfold State.cqRoom State.cqUsed State.cqHeld State.fb State.f State.rd
  rw [h1, h2]

@[simp] theorem State.begin_cqRoom (s : State) (c n : Nat) : s.begin.cqRoom c n = s.cqRoom c n :=
  State.cqRoom_congr _ _ c n rfl rfl
@[simp] theorem State.begin_wqOf (s : State) (q : Nat) : s.begin.wqOf q = s.wqOf q := rfl
@[simp] theorem State.begin_wqsRun (s : State) : s.begin.wqsRun = s.wqsRun := rfl
@[simp] theorem State.begin_level (s : State) (p : Path) : s.begin.level p = s.level p := rfl

/-- A command whose entry is at the head of its queue begins: its need is checked, it runs, and it settles (R360, R366). -/
theorem State.command_begins (s : State) (q : BitVec 6) (op : Nat) (e : WqEntry) (rest : List WqEntry) (n : WqEntry → Need)
    (f : WqEntry → State → CmdAns) (h : s.runsEntry q op e rest) :
    ∃ s0 : State, s0.hst = s.hst ∧
      s.command q op n f = .next (((s.begun q e rest).cmdRun (s.wqLevel q) (n e) (f e)).settle q.toNat s0) := by
  obtain ⟨h1, h2, h3, h4, h5, h6, h7, h8⟩ := h
  refine ⟨if s.fb F.HST_WQ_STATUS_WAIT_CQ q.toNat then s.begin.setF F.HST_WQ_STATUS_WAIT_CQ 0 q.toNat else s.begin, ?_, ?_⟩
  · split <;> simp
  · rw [State.command, State.onMgmt_runs _ _ h1]
    unfold State.wqRun
    simp only [State.begin_wqOf, h2, State.begin_wqsRun, h3, State.begin_f, State.begin_fb, h4, h5, h6, h7,
      State.begin_cqRoom, h8, State.begin_level]
    rw [if_neg (by decide), if_neg (by simp), if_neg (by decide)]
    rfl

end Sys2Proof.Machine
end

