-- ==== Sys2Proof/Tests/Slice0.lean ====
section
/-! SUPPORT. Tests: ill-formed commands are refused, words written out from the encoding tables decode to what they stand for,
and for each statement states and operands that meet its hypotheses. Expected values are from the spec's tables and rules. -/
namespace Sys2Proof.Tests
open Sys2Proof Sys2Proof.Machine
-- One test after another: side by side, their evaluations hold too much memory at once.
set_option Elab.async false

/-! ### Ill-formed commands (one for each check of WellFormed) -/

theorem test_wf_write_misaligned : WellFormed (.registerWrite .pcie .bar0 0x11 false [0]) = false := by decide
theorem test_wf_write_three_words : WellFormed (.registerWrite .pcie .bar0 0x10 false [0, 0, 0]) = false := by decide
theorem test_wf_read_misaligned : WellFormed (.rcFieldRead .pcie 0x12 false 1) = false := by decide
theorem test_wf_read_no_word : WellFormed (.rcFieldRead .pcie 0x10 false 0) = false := by decide
theorem test_wf_low_read_misaligned : WellFormed (.lowWordRead .pcie 0x13 false 1) = false := by decide
theorem test_wf_low_read_three : WellFormed (.lowWordRead .pcie 0x10 false 3) = false := by decide
theorem test_wf_bar2_read_empty : WellFormed (.bar2Read 0 0 false) = false := by decide
theorem test_wf_bar2_read_long : WellFormed (.bar2Read 0 4097 false) = false := by decide
theorem test_wf_bar2_write_empty : WellFormed (.bar2Write 0 []) = false := by decide
theorem test_wf_sensors : WellFormed (.thermalSample [0]) = false := by decide
theorem test_wf_tod : WellFormed (.todMessage 500 []) = false := by decide
theorem test_wf_vote : WellFormed (.voteWindowReceive 0 [none, none]) = false := by decide
theorem test_wf_fabric_frame : WellFormed (.fabricLaneFrameReceive 0 ⟨0, 0, []⟩) = false := by decide
theorem test_wf_twin_frame : WellFormed (.twinLaneFrameReceive 0 ⟨0, 0, [.idle]⟩) = false := by decide
theorem test_wf_block : WellFormed (.imgBlock 0 (some [1])) = false := by decide
theorem test_wf_fetch : WellFormed (.wqEntryFetch 0 (some [1, 2, 3])) = false := by decide
theorem test_wf_desc : WellFormed (.dmaDescriptorComplete 0 [1] []) = false := by decide
theorem test_wf_bus_error : WellFormed (.dmaBusError 0 [1] [] 0) = false := by decide
theorem test_wf_slot : WellFormed (.injectSlotTake 0 [1]) = false := by decide
theorem test_wf_store_spares : WellFormed (.storeReadDone ⟨0, 0, false, 0, 8, 0, false, [], [0]⟩ []) = false := by decide
theorem test_wf_store_item : WellFormed (.storeApplyResume [.reg 2 0] []) = false := by decide
theorem test_wf_good : WellFormed (.lowWordRead .pcie 0x10 false 2) = true := by decide

/-! ### Words of Tables 8-5 and 8-6 -/

/-- The thread the tests run. -/
def q : Issue := ⟨517, none⟩

theorem test_word_addi : engDecode q (0b010000#6 ++ 8#5 ++ 8#5 ++ 0xFFFF#16) = some (.addi q 8 8 0xFFFF) := by decide
theorem test_word_lkt : engDecode q (0b111011#6 ++ 7#5 ++ 0#5 ++ 5#6 ++ 0#2 ++ 0#8) = some (.lkt q 7 0 5 0) := by decide
theorem test_word_beq : engDecode q (0b110000#6 ++ 1#5 ++ 2#5 ++ 3#16) = some (.beq q 1 2 3) := by decide
theorem test_word_ext : engDecode q (0b011100#6 ++ 3#5 ++ 4#5 ++ 8#6 ++ 15#6 ++ 0#4) = some (.ext q 3 4 8 15) := by decide
theorem test_word_reserved : engDecode q (0b101111#6 ++ 0#26) = none := by decide

/-! ### States that meet the statements' hypotheses -/

/-- Every group out of reset, the link up. -/
def on : State :=
  { State.reset with grp := { State.reset.grp with porstLow := false, coreUp := true, mgmtUp := true, hostUp := true
                                                   linkUp := true, holds := [] } }

/-- What a command answers, tested. -/
def after (i : Instr) (s : State) (p : State → Bool) : Bool := match exec i s with | .next t => p t | _ => false

theorem test_step_front : (after .ppsOutFall { on with tb := { on.tb with ppsOut := true } } fun t => !t.tb.ppsOut) = true := by decide
theorem test_reset_held : (State.reset.coreRuns, State.reset.mgmt, State.reset.pending.isEmpty) = (false, false, true) := by decide
theorem test_meets_ExecKeepsTheQueue : (after .ppsOutFall { on with pending := [.ppsOutFall] } fun t => t.pending.length == 1) = true := by
  decide
theorem test_meets_SecurityVersionNeverFalls : 0 ≤ on.boot.fuses.svn ∧
    (match step { on with pending := [.ppsOutFall] } with | .next t => t.boot.fuses.svn == 0 | _ => false) = true := by decide

/-! ### Engine instructions -/

/-- Thread 517 READY at instruction 3, which is i, with w1 to w3. -/
def th (i : Instr) (x y z : W64) (g : Thread → Thread := id) : State :=
  let t : Thread := g { state := .ready, pc := 3, regs := [(1, x), (2, y), (3, z)], rob := 7, admLen := 80
                        bytes := (List.range 80).map (BitVec.ofNat 8 ·), md := List.replicate 16 5
                        scratch := List.replicate 128 0, frame := some { port := 17, bytes := [] } }
  { on with
    pica := { on.pica with num := 99 }
    ppe := { on.ppe with threads := [(517, t)], prog := [(2 * 65536 + 3, (engEncode i).getD 0)], plen := [(2, 100)]
                         rob := [(1, [{ id := 6, adm := 0, len := 5 }, { id := 7, adm := 1, len := 80 }])]
                         cloc := [(4 * 8192 + 2, 77)] } }

/-- Instruction i of thread 517 issues and the next index is in its program. -/
def runs (s : State) (i : Instr) (uses : List (BitVec 5)) : Prop := s.issues q i uses ∧ s.inProgram q ((s.tq q).pc + 1)

theorem test_meets_EngineDecodeOfEncode : issueOf (.add q 3 1 2) = some q ∧
    engEncode (.add q 3 1 2) = some (0b000001#6 ++ 3#5 ++ 1#5 ++ 2#5 ++ 0#11) := by decide

theorem test_meets_RegisterInstructionsResult :
    tableR (.add q 3 1 2) (fun r => ((th (.add q 3 1 2) 5 9 0).tq q).reg r) = some (3, [1, 2], 14) ∧
    runs (th (.add q 3 1 2) 5 9 0) (.add q 3 1 2) [3, 1, 2] ∧
    tableI (.addi q 3 1 0xFFFF) (fun r => ((th (.addi q 3 1 0xFFFF) 5 9 0).tq q).reg r) = some (3, [1], 4) ∧
    runs (th (.addi q 3 1 0xFFFF) 5 9 0) (.addi q 3 1 0xFFFF) [3, 1] := by
  unfold runs State.issues State.inProgram; decide
theorem test_add_wraps : (after (.add q 3 1 2) (th (.add q 3 1 2) (0 - 1) 2 0) fun t => (t.tq q).reg 3 == 1) = true := by decide
theorem test_mul_into_source : (after (.mul q 1 1 1) (th (.mul q 1 1 1) (2 ^ 40 + 3) 2 0) fun t =>
    (t.tq q).reg 1 == 6 * 2 ^ 40 + 9) = true := by decide
theorem test_sar_sign : (after (.sari q 2 1 4) (th (.sari q 2 1 4) (0x8000000000000000) 2 0) fun t =>
    (t.tq q).reg 2 == 0xF800000000000000) = true := by decide
theorem test_shl_takes_six_bits : (after (.shl q 3 1 2) (th (.shl q 3 1 2) 1 65 0) fun t => (t.tq q).reg 3 == 2) = true := by decide
theorem test_slt_signed : (after (.slt q 3 1 2) (th (.slt q 3 1 2) (0 - 1) 2 0) fun t => (t.tq q).reg 3 == 1) = true := by decide
theorem test_sltu_unsigned : (after (.sltu q 3 1 2) (th (.sltu q 3 1 2) (0 - 1) 2 0) fun t => (t.tq q).reg 3 == 0) = true := by decide
theorem test_csum_folds : (after (.csum q 3 1 2) (th (.csum q 3 1 2) 0xFFFF 2 0) fun t => (t.tq q).reg 3 == 2) = true := by decide

theorem test_meets_BitFieldInstructionsResult :
    runs (th (.ins q 3 1 60 15) 5 9 0) (.ins q 3 1 60 15) [3, 1] ∧ runs (th (.lih q 3 3 7) 5 9 0) (.lih q 3 3 7) [3] := by
  unfold runs State.issues State.inProgram; decide
theorem test_ins_cut : (after (.ins q 3 1 60 15) (th (.ins q 3 1 60 15) 0x1F 9 1) fun t => (t.tq q).reg 3 == 0xF000000000000001)
    = true := by decide
theorem test_lih_top : (after (.lih q 3 3 7) (th (.lih q 3 3 7) 0 9 1) fun t => (t.tq q).reg 3 == 0x0007000000000001) = true := by
  decide

theorem test_meets_LoadsReturnBigEndianBytes :
    runs (th (.ld64 q 3 1 0) 0x3F8 0 0) (.ld64 q 3 1 0) [3, 1] ∧ ((th (.ld64 q 3 1 0) 0x3F8 0 0).tq q).addr 1 0 + 8 ≤ 0x400 ∧
    runs (th (.ld32 q 3 1 4) 0x17FFF8 0 0) (.ld32 q 3 1 4) [3, 1] ∧
    ((th (.ld32 q 3 1 4) 0x17FFF8 0 0).tq q).addr 1 4 = 0x17FFFC := by
  unfold runs State.issues State.inProgram; decide
theorem test_ld32_big_endian : (after (.ld32 q 3 1 0) (th (.ld32 q 3 1 0) 2 0 0) fun t => (t.tq q).reg 3 == 0x02030405) = true := by
  decide

theorem test_meets_WritesChangeTheirTargetOnly :
    runs (th (.st16 q 2 1 0) 78 0xABCD 0) (.st16 q 2 1 0) [2, 1] ∧ runs (th (.st16 q 2 1 0) 0x2FE 0xABCD 0) (.st16 q 2 1 0) [2, 1] ∧
    runs (th (.st16 q 2 1 0) 0x17FFFE 0xABCD 0) (.st16 q 2 1 0) [2, 1] ∧
    ((th (.st16 q 2 1 0) 78 0xABCD 0).tq q).addr 1 0 = 78 ∧ ((th (.st16 q 2 1 0) 0x2FE 0xABCD 0).tq q).addr 1 0 = 0x2FE ∧
    ((th (.st16 q 2 1 0) 0x17FFFE 0xABCD 0).tq q).addr 1 0 = 0x17FFFE := by
  unfold runs State.issues State.inProgram; decide
theorem test_meets_WritesChangeTheirTargetOnly_sizes (i : Instr) (x y z : W64) : ((th i x y z).tq q).bytes.length = 80 ∧
    ((th i x y z).tq q).md.length = 16 ∧ ((th i x y z).tq q).scratch.length = 128 :=
  ⟨rfl, List.length_replicate, List.length_replicate⟩
theorem test_st16_big_endian : (after (.st16 q 2 1 0) (th (.st16 q 2 1 0) 78 0xABCD 0) fun t =>
    (t.tq q).bytes.drop 77 == [77, 0xAB, 0xCD]) = true := by decide
theorem test_meets_ScratchStoreThenLoad : 8 ∈ [1, 2, 4, 8] ∧ 0x280 ≤ 0x2F8 ∧ 0x2F8 + 8 ≤ 0x300 ∧
    ((th (.st64 q 2 1 0) 0 0 0).tq q).scratch.length = 128 := ⟨by decide, by decide, by decide, List.length_replicate⟩

theorem test_meets_BadAccessFaults :
    (th (.ld64 q 3 1 0) 0x3F9 0 0).issues q (.ld64 q 3 1 0) [3, 1] ∧ (th (.ld64 q 3 1 0) 0x100001 0 0).issues q (.ld64 q 3 1 0) [3, 1] ∧
    (th (.st16 q 2 1 0) 0x21F 7 0).issues q (.st16 q 2 1 0) [2, 1] ∧ (th (.st16 q 2 1 0) 79 7 0).issues q (.st16 q 2 1 0) [2, 1] ∧
    (th (.st16 q 2 1 0) 0x16FFFF 7 0).issues q (.st16 q 2 1 0) [2, 1] ∧ (th (.st16 q 2 1 0) 0x180000 7 0).issues q (.st16 q 2 1 0) [2, 1] ∧
    ((th (.st16 q 2 1 0) 0x16FFFF 7 0).tq q).addr 1 0 = 0x16FFFF := by
  unfold State.issues; decide
/-- Code, thread and PC of PPE_FAULT_LOG: a store over the end of the area 0x220 (Table 8-2, Table 8-7). -/
theorem test_store_read_only_faults : (after (.st16 q 2 1 0) (th (.st16 q 2 1 0) 0x21F 7 0) fun t =>
    t.rd .PPE_FAULT_LOG 0 0 0 == BitVec.ofNat 64 (3 * 2 ^ 59 + 517 * 2 ^ 44 + 3 * 2 ^ 16)) = true := by decide +kernel

theorem test_meets_BranchesAndJumpsMoveThePC :
    (th (.beq q 1 2 0xFFFF) 5 5 0).issues q (.beq q 1 2 0xFFFF) [1, 2] ∧ (th (.beq q 1 2 0xFFFF) 5 5 0).inProgram q (3 + 0xFFFF) ∧
    (th (.jr q 1) 99 0 0).issues q (.jr q 1) [1] ∧ (th (.jr q 1) 99 0 0).inProgram q 99 ∧
    runs (th (.engineNop q) 0 0 0) (.engineNop q) [] := by
  unfold runs State.issues State.inProgram; decide
theorem test_beq_back : (after (.beq q 1 2 0xFFFF) (th (.beq q 1 2 0xFFFF) 5 5 0) fun t => (t.tq q).pc == 2) = true := by decide
theorem test_call_links : (after (.call q 5) (th (.call q 5) 0 0 0) fun t => (t.tq q).pc == 8 && (t.tq q).reg 31 == 4) = true := by decide

theorem test_meets_SpecialInstructionsResult :
    runs (th (.atadd q 3 1 2) 0x17FFF8 9 0) (.atadd q 3 1 2) [3, 1, 2] ∧ runs (th (.rdc q 3 12) 0 0 0) (.rdc q 3 12) [3] ∧
    runs (th (.wait q) 0 0 0) (.wait q) [] ∧ runs (th (.dom q 1) 5 0 0) (.dom q 1) [1] ∧
    runs (th (.cnta q 1 2) 5 6 0) (.cnta q 1 2) [1, 2] ∧ (th (.cnta q 1 2) 5 6 0).bankQueued 5 < bankRoom ∧
    (let full := { th (.cnta q 1 2) 5 6 0 with cnt := { on.cnt with posts := List.replicate 1024 ⟨5, [1, 1], 0⟩ } }
     bankRoom ≤ full.bankQueued 5 ∧ runs full (.cnta q 1 2) [1, 2]) := by
  unfold runs State.issues State.inProgram; decide +kernel
theorem test_atadd_old : (after (.atadd q 3 1 2) (th (.atadd q 3 1 2) 0x170010 5 9) fun t =>
    (t.tq q).reg 3 == 77 && t.clusterWord 4 57346 == 82) = true := by decide

theorem test_meets_LookupsAndEdits_edits :
    runs (th (.hins q 1 128) 80 0 0) (.hins q 1 128) [1] ∧ runs (th (.hdel q 1 5) 75 0 0) (.hdel q 1 5) [1] ∧
    runs (th (.hdel q 1 6) 75 0 0) (.hdel q 1 6) [1] ∧ ((th (.hdel q 1 5) 75 0 0).tq q).edits < 8 := by
  unfold runs State.issues State.inProgram; decide
theorem test_hdel_past_the_end : (after (.hdel q 1 6) (th (.hdel q 1 6) 75 0 0) fun t =>
    (t.tq q).state == .ending && t.f F.PPE_SLICE_STAT_FAULTS 1 == 1) = true := by decide +kernel

theorem test_meets_LookupsAndEdits :
    runs (th (.lkx q 3 1 2 true false) 5 6 0) (.lkx q 3 1 2 true false)
      (3 :: keyRegs 1 ((th (.lkx q 3 1 2 true false) 5 6 0).xKeyRegs 2)) ∧
    1 + (th (.lkx q 3 1 2 true false) 5 6 0).xKeyRegs 2 ≤ 32 ∧
    runs (th (.lkt q 30 1 2 1) 5 6 0) (.lkt q 30 1 2 1) (30 :: 31 :: keyRegs 1 (tdKeyRegs 1)) ∧
    (th (.lkt q 30 1 2 1) 5 6 0).tdLost 1 = false ∧ (th (.lkt q 30 1 2 1) 5 6 0).portFor 1 = some 2 ∧
    (let s := th (.add q 3 1 2) 5 6 0 fun t => { t with pend := [2] }
     (s.usesOf (.add q 3 1 2)).find? (fun r => (s.tq q).pend.contains r.toNat) = some 2 ∧ s.coreRuns = true ∧
      (s.tq q).state = .ready ∧ engDecode q (s.progWord 1 (s.tq q).bank (s.tq q).pc) = some (.add q 3 1 2)) ∧
    ((th (.add q 3 1 2) 5 6 0 fun t => { t with state := .ending }).tq q).state ≠ .ready := by
  unfold runs State.issues State.inProgram; decide
theorem test_meets_TerminalInstructionsEndThePacket :
    (th (.send q) 0 0 0).issues q (.send q) [] ∧ (th (.punt q 3 0x201) 0 0 0).issues q (.punt q 3 0x201) [] ∧
    (th (.drop q 0x201) 0 0 0).issues q (.drop q 0x201) [] := by
  unfold State.issues; decide
theorem test_meets_CopiesLeaveBesideTheFrame :
    runs (th (.cpy q 3 0x201) 0 0 0) (.cpy q 3 0x201) [] ∧ ((th (.cpy q 3 0x201) 0 0 0).tq q).copies < 2 ∧
    runs ((th (.mirr q 63) 0 0 0).setF F.CLS_MIR_CFG_EN 1 63) (.mirr q 63) [] ∧
    ((th (.mirr q 63) 0 0 0).setF F.CLS_MIR_CFG_EN 1 63).f F.CLS_MIR_SAMPLE_N 63 < 2 ∧
    ((th (.mirr q 63) 0 0 0).setF F.CLS_MIR_CFG_EN 1 63).fb F.CLS_MIR_CFG_EN 63 = true ∧
    runs (th (.cpy q 3 0x201) 0 0 0 fun t => { t with copies := 2 }) (.cpy q 3 0x201) [] := by
  unfold runs State.issues State.inProgram; decide

/-! ### From the ingress FIFO to the buffer store -/

/-- A frame of 64 bytes on port 17. -/
def fr : RxFrame := { port := 17, bytes := List.replicate 64 1 }
/-- A frame of 64 bytes with its descriptor. -/
def pk : Pkt := { bytes := List.replicate 64 1, port := 17 }

theorem test_meets_HeadsBecomeReadyThreads_a :
    let s := { on with cry := { on.cry with fifo := [(1, [fr])] } }
    s.fifoOf 1 = [fr] ∧ (s.pickThread 1).isSome = true ∧ mgetD s.prs.heads 1 0 < 32 ∧ (s.robOf 1).length < 2048 ∧
    mgetD s.prs.visits 1 0 + (s.parse 1 (s.prsBank 1) 1 fr.bytes).visits ≤ 256 := by decide
/-- Thread 517 with its parse and searches at hand. -/
def loading (g : Thread → Thread) : State :=
  { on with ppe := { on.ppe with threads := [(517, g { state := .loading, frame := some fr, bytes := fr.bytes })], plen := [(2, 1)] } }
theorem test_meets_HeadsBecomeReadyThreads_b : ((loading id).th 517).state = .loading ∧ ((loading id).th 517).settled = false ∧
    ((loading id).th 517).s0 ≠ .wait := by decide
theorem test_meets_HeadsBecomeReadyThreads_c : ((loading ({ · with settled := true })).th 517).settled = true ∧
    0 % 65536 < (loading ({ · with settled := true })).progLen 1 0 := by decide
theorem test_meets_ResponsesDeadlinesAndEnds :
    let s := { th (.send q) 0 0 0 with ppe := { (th (.send q) 0 0 0).ppe with resp := [⟨517, 0, 3, [1]⟩] } }
    s.ppe.resp.find? (fun r => r.thread == 517) = some ⟨517, 0, 3, [1]⟩ ∧ (s.th 517).state ≠ .free ∧ (s.th 517).state ≠ .ending ∧
    (s.th 517).deadline ≤ s.pica.num ∧ ((th (.send q) 0 0 0 ({ · with state := .ending })).th 517).state = .ending := by decide
theorem test_meets_CommitsSwapBanks :
    let s := on.setF F.PRS_BANK_STATUS_PENDING 0x80
    s.f F.PRS_BANK_STATUS_PENDING = 0x80 ∧ bit 0x80 7 = true ∧ s.prsCheck 7 (1 - s.prsBank 7) ≠ 0 ∧
    (∀ k, k < 7 → bit 0x80 k = false) ∧
    (let t := { on with ppe := { on.ppe with checking := 0x80, plen := [(15, 1)] } }
     t.ppe.checking < 256 ∧ (∀ sl, sl < 8 → bit t.ppe.checking sl = true → t.ppeCheck sl = 0)) := by decide
/-- A graph of node 0 alone, which every port starts at, passes the check of a commit. -/
theorem test_meets_CommitsSwapBanks_good :
    let s := { on.setF F.PRS_BANK_STATUS_PENDING 0x80 with prs := { on.prs with nodes := [(bankKey 7 1 256 0, [2 ^ 63, 0, 0, 0])] } }
    s.f F.PRS_BANK_STATUS_PENDING = 0x80 ∧ ∀ sl, sl < 8 → bit 0x80 sl = true → s.prsCheck sl (1 - s.prsBank sl) = 0 := by
  decide +kernel
theorem test_meets_CommitsSwapBanks_retire :
    let w := ((on.setF F.PPE_PC_CFG_EN 1 7 3 7).setF F.PPE_PC_CFG_EVENT 0x10 7 3 7).setF F.PPE_PC_CFG_ENGINES 0x8000 7 3 7
    on.writable .fw .PPE_RETIRE 0 0 0 ∧ bit (on.f F.PPE_SLICE_RETIRED_ENGINES 7) 63 = false ∧
    (on.setF F.PPE_PC_CYCLE_CYCLES (2 ^ 48 - 32) 7 3).pcCanWrap 31 8 = true ∧
    (on.setF F.PPE_PC_CYCLE_CYCLES (2 ^ 48 - 33) 7 3).pcCanWrap 31 8 = false ∧
    (w.setF F.PPE_PC_VAL_VALUE (2 ^ 48 - 512) 7 3 7).pcCanWrap 31 7 = true ∧ (w.pcEngines 31 7).contains 15 = true := by
  unfold State.writable; decide +kernel
theorem test_meets_ReleaseKeepsDomainOrder :
    let e : RobEntry := { id := 6, adm := 0, len := 5 }
    let f : RobEntry := { id := 7, adm := 1, len := 80, sent := some pk, ended := true, domain := some 5 }
    let s := { on with ppe := { on.ppe with rob := [(1, [e, f])] } }
    s.robOf 1 = [] ++ e :: [f] ∧ e.ended = false ∧ e.domain = none ∧ f.sent.isSome = true ∧
    ((s.robOf 1).map (·.id)).Nodup := by decide
theorem test_meets_ReleaseKeepsDomainOrder_release :
    let x : RobEntry := { id := 6, adm := 0, len := 5, domain := some 4 }
    let e : RobEntry := { id := 7, adm := 1, len := 80, sent := some pk, ended := true, domain := some 5 }
    let s := { on.setF F.BUF_STATUS_CFG_DONE 1 with ppe := { on.ppe with rob := [(1, [x, e])], relUsed := [(1, 31)] } }
    s.robOf 1 = [x] ++ e :: [] ∧ pk.cbEn = false ∧ mgetD s.ppe.relUsed 1 0 < 32 ∧ x.domain.isSome = true ∧ x.domain ≠ e.domain ∧
    s.fb F.BUF_STATUS_CFG_DONE = true ∧ s.buf.fq.hist.length < 64 ∧ groupBytes 80 (pk :: e.outs) ≤ 262144 := by decide +kernel
theorem test_meets_GroupsPairWithTheirData :
    let g : Group := ⟨1, 4095, 64, []⟩
    let s := { on with buf := { on.buf with desc := [(1, [g])], tagIn := [(1, 4095)] } }
    let u := { on with buf := { on.buf with chan := [(1, [⟨0, 64⟩])] } }
    let w := { on with pica := { on.pica with num := 64 }, buf := { on.buf with wait := [(1, [⟨0, none, 64, 0⟩])] } }
    mgetD s.buf.desc 1 [] = [g] ∧ mgetD s.buf.tagIn 1 0 = g.tag ∧ mgetD u.buf.chan 1 [] = [⟨0, 64⟩] ∧
    mgetD w.buf.wait 1 [] = [⟨0, none, 64, 0⟩] ∧ 0 + 64 ≤ w.pica.num ∧
    (let x := { s with buf := { s.buf with wait := [(1, [⟨4095, none, 64, 0⟩])] } }
     let y := { u with buf := { u.buf with wait := [(1, [⟨0, some ⟨1, 0, 64, []⟩, 0, 0⟩])] } }
     mgetD x.buf.wait 1 [] = [⟨g.tag, none, 64, 0⟩] ∧ mgetD y.buf.wait 1 [] = [⟨0, some ⟨1, 0, 64, []⟩, 0, 0⟩]) := by decide

/-! ### Time -/

theorem test_meets_PicasAdvance : on.mgmt = true ∧ on.coreRuns = true ∧
    { on with grp := { on.grp with coreUp := false } }.coreRuns = false ∧
    { on with pica := { on.pica with qd := 256 } }.pica.qd % 256 = (0 : Byte).toNat ∧
    on.pica.td % 256 ≠ (255 : Byte).toNat ∧ (recentSlips on.pica.slipsTd on.pica.num).length ≤ 4 := by decide
theorem test_mark_slip : (after (.picaMark .td 255) on fun t => t.raised 8 && t.pica.td % 256 == 255) = true := by decide
theorem test_meets_SecondsAndPpsOut : on.mgmt = true ∧ { on with tb := { on.tb with todDue := true } }.tb.todDue = true ∧
    { on with tb := { on.tb with ppsOut := true } }.tb.ppsOut = true ∧ on.writable .fw .TIM_ADJ 0 0 0 := by
  unfold State.writable; decide +kernel
theorem test_second_carries : (after (.wholeSecond []) { on with tb := { on.tb with ns := 1000000002 } } fun t =>
    t.tb.sec == 1 && t.tb.ns == 2) = true := by decide +kernel
theorem test_meets_PpsDiscipline :
    let s := on
    (on.setF F.TIM_CTRL_SRC 0).ppsMode = false ∧ s.ppsMode = true ∧
    (let u := { s with tb := { s.tb with tod := some 0, good := 3 } }
     u.tb.tod = some 0 ∧ u.tb.phaseError 0 ≤ u.f F.TIM_CTRL_LOCK_NS ∧ 3 ≤ u.tb.good) ∧ todValid 500 [] = false ∧ todValid 900 [0xA5, 0x5A, 0, 0, 0, 0, 0, 7, 0, 7] = true ∧
    (s.setF F.TIM_STATUS_PPS_SEEN 1).fb F.TIM_STATUS_PPS_SEEN = true := by decide

/-! ### Events, statistics, power -/

theorem test_meets_EventsReachTheHost :
    let s := { on.setF F.EVT_SRC_CFG_EN 1 1023 with
      evt := { on.evt with xing := [(1023, ⟨0, 0, 5, none⟩)], msixEn := true, msix := [(0, { masked := false })], holdoff := [(63, true)] } }
    mget s.evt.xing 1023 = some ⟨0, 0, 5, none⟩ ∧ s.pendBit 1023 = false ∧ s.fb F.EVT_SRC_CFG_EN 1023 = true ∧
    mget s.evt.holdoff (s.f F.EVT_SRC_CFG_VECTOR 1023) = none ∧ (s.msixEntry 0).masked = false ∧
    mget s.evt.holdoff 63 = some true ∧ s.grp.hostUp = true ∧ { s with grp := { s.grp with hostUp := false } }.grp.hostUp = false := by
  decide
theorem test_event_message : (after (.eventRaise 1023)
    { on.setF F.EVT_SRC_CFG_EN 1 1023 with
      evt := { on.evt with xing := [(1023, ⟨0, 0, 5, none⟩)], msixEn := true, msix := [(0, { masked := false, addr := 16 })] } }
    fun t => t.out == [.msix 0 16 0] && t.pendBit 1023) = true := by decide
theorem test_meets_CountsAreKept :
    let p : StatPost := ⟨17, [1, 64], 5⟩
    let s := { on with cnt := { on.cnt with posts := [p], cache := [(17, { a := [1, 2, 0, 0] })], lru := [17] } }
    s.cnt.posts.find? (fun p => p.key % 16 == 1) = some p ∧ mget s.cnt.cache p.key = some { a := [1, 2, 0, 0] } ∧
    s.toBankB p = false ∧ mgetD s.cnt.taken 1 0 < 128 ∧ zeroCounts [1, 2, 0, 0] = false ∧ zeroCounts (({} : StatEntry).b) = true ∧ s.cnt.evicted = [] ∧
    (let u := { s with cnt := { s.cnt with posts := [] } }.setF F.HBM_STATUS_READY 1
     u.cnt.cache = [(17, { a := [1, 2, 0, 0] })] ∧ u.hbm.poison = [] ∧ u.cnt.flushed < 32 ∧
       (u.begin.hbmAsk 4 true (recordSpan 17)).1 = true) := by decide +kernel
theorem test_meets_SnapshotsAndExports :
    let s := { on with cnt := { on.cnt with snapping := some 4 } }
    let u := (on.setF F.CNT_STATUS_FROZEN 1)
    let w := (on.setF F.CNT_EXP_CFG_EN 1)
    let x := { w with cnt := { w.cnt with exporting := true, pulsed := true } }
    s.bankAFlushed 4 = true ∧ u.fb F.CNT_STATUS_FROZEN = true ∧ u.cnt.exportWait = false ∧ w.fb F.CNT_EXP_CFG_EN = true ∧
    w.standalone = true ∧ w.cnt.exporting = false ∧ w.fb F.CNT_STATUS_FROZEN = false ∧ x.cnt.pulsed = true ∧
    x.fb F.DMA_CH_STATUS_LATE (x.f F.CNT_EXP_CFG_CHANNEL) = false ∧ x.exporterRuns = true ∧ x.cnt.expired = false := by decide
theorem test_meets_SnapshotsAndExports_asked :
    let v : W32 := 0xB20C8000
    let r : W32 := 0x720C8000
    on.writable .fw .CNT_CTRL 0 0 0 ∧ F.CNT_CTRL_FREEZE_MS.of (v.setWidth 64) ∈ List.range' 1 100 ∧
    F.CNT_CTRL_FLUSH_MS.of (v.setWidth 64) ∈ List.range' 1 1000 ∧
    (F.CNT_CTRL_SNAPSHOT.of (v.setWidth 64), F.CNT_CTRL_RELEASE.of (v.setWidth 64)) = (1, 0) ∧ on.cnt.snapAsked = false ∧
    on.cnt.snapping = none ∧ on.fb F.CNT_STATUS_FROZEN = false ∧ F.CNT_CTRL_FREEZE_MS.of (r.setWidth 64) ∈ List.range' 1 100 ∧
    F.CNT_CTRL_FLUSH_MS.of (r.setWidth 64) ∈ List.range' 1 1000 ∧
    (F.CNT_CTRL_SNAPSHOT.of (r.setWidth 64), F.CNT_CTRL_RELEASE.of (r.setWidth 64)) = (0, 1) := by
  unfold State.writable; decide +kernel
theorem test_meets_PowerStatesChange :
    let s := { on with pwr := { on.pwr with leaving := [7], p4Drain := true, p4Relock := true } }
    let u := on.setF F.PWR_GRP_STATUS_STATE 3 0
    s.pwr.leaving.contains 7 = true ∧ s.pwr.p4Drain = true ∧ s.pwr.p4Relock = true ∧
    on.f F.PWR_GRP_STATUS_STATE 7 < (on.setF F.PWR_GRP_CFG_LTR_US 65535 7).deepest 7 ∧ on.f F.PWR_STATUS_DEVICE < 3 ∧
    u.deepest 0 < u.f F.PWR_GRP_STATUS_STATE 0 ∧ u.f F.PWR_GRP_STATUS_STATE 0 ≤ 3 := by decide
theorem test_meets_PowerStatesChange_writes :
    let s := on.setF F.PWR_GRP_STATUS_STATE 3 7
    let u := on.setF F.PWR_CTRL_P4_REQ 1
    s.writable .fw .PWR_GRP_CFG 7 0 0 ∧ s.f F.PWR_GRP_STATUS_STATE 7 = 3 ∧ F.PWR_GRP_CFG_LTR_US.of 499 < 500 ∧
    on.writable .fw .PWR_CTRL 0 0 0 ∧ on.doublet = false ∧ on.fb F.PWR_CTRL_P4_REQ = false ∧
    F.PWR_CTRL_P4_REQ.of 0x80000000 = 1 ∧ u.fb F.PWR_CTRL_P4_REQ = true ∧ u.writable .fw .PWR_CTRL 0 0 0 := by
  unfold State.writable; decide +kernel
theorem test_meets_TemperatureTrips :
    let s := { on with grp := { on.grp with holds := [.thermal] } }
    (List.replicate 22 (460 : BitVec 16)).length = 22 ∧ on.fb F.PWR_THERM_STATUS_TRIP = false ∧
    s.grp.holds.contains .thermal = true ∧ s.hottest.2 < ((s.f F.PWR_THERM_CFG_CRIT : Int) - 10) * 4 := by decide +kernel

/-! ### Line ports and link crypto -/

/-- Port 17 enabled in mode m, the SA region zeroed. -/
def port17 (m : Nat) : State :=
  ((on.setPf F.LNE_PORT_CFG_EN 1 17).setPf F.LNE_PORT_CFG_MODE m 17).setF F.CRY_STATUS_ZERO_DONE 1

/-- 60 bytes with their FCS. -/
def good64 : List Byte := List.replicate 60 0 ++ fcs (List.replicate 60 0)

theorem test_meets_LineFramesAreReceived :
    let s := port17 1
    let u := s.setPf F.LNE_PORT_CTRL_LOOPBACK 1 17
    s.coreRuns = true ∧ s.pwr.p4Drain = false ∧ s.pf F.LNE_PORT_CTRL_LOOPBACK 17 = 0 ∧ s.portEn 17 = true ∧
    s.rxFailing 17 = false ∧ s.fb F.CRY_STATUS_ZERO_DONE = true ∧ s.rxCheck 17 good64 false ⟨0, false⟩ = none ∧
    s.fb F.CRY_PORT_CFG_MACSEC_EN 17 = false ∧ espFind (good64.take 60) = none ∧ s.fifoRoom 1 60 = true ∧
    (s.rxCheck 17 (List.replicate 64 0) false ⟨0, false⟩).isSome = true ∧ u.pf F.LNE_PORT_CTRL_LOOPBACK 17 = 1 ∧
    u.loopedIn 17 = true ∧ (s.setPf F.LNE_PORT_CTRL_LOOPBACK 2 17).pf F.LNE_PORT_CTRL_LOOPBACK 17 = 2 ∧
    s.pfb F.LNE_PORT_CTRL_TX_DISABLE 17 = false := by
  decide +kernel
theorem test_frame_enters : (after (.lineFrameReceive 17 good64 false ⟨0, false⟩) (port17 1) fun t =>
    (t.fifoOf 1).map (·.bytes.length) == [60]) = true := by decide +kernel
theorem test_meets_DefectsAndAlignment :
    let s := (port17 1).setF F.LNE_LANE_TEST_CHK_EN 1 7 15
    s.portEn 17 = true ∧ timedDefect 0 true = true ∧ defectApplies (s.portOtn 17) 0 = true ∧
    bit (s.raw 17) 0 ≠ true ∧ s.raw 17 < 2 ^ 21 ∧ 0 < alignLanes (s.portMode 17) ∧
    s.fb F.LNE_LANE_TEST_CHK_EN 7 15 = true ∧ s.laneInUse 7 15 = false ∧ s.refLostAt 17 = false ∧ defectApplies (s.portOtn 17) 1 = true ∧
    bit (s.raw 17) 1 ≠ true := by decide +kernel
theorem test_meets_DefectsAndAlignment_restart :
    (port17 1).writable .fw .LNE_PORT_CTRL 1 1 0 ∧ F.LNE_PORT_CTRL_RESTART.of 0x80000040 = 1 ∧
    F.LNE_PORT_CTRL_MAX_FRAME.of 0x80000040 ≤ (port17 1).f F.BUF_CTRL_MAX_FRAME := by
  unfold State.writable; decide +kernel
theorem test_meets_AlignmentLocksAndUnlocks :
    let a : Align := { locked := true, expect := 100, err := 4 }
    let b : Align := { cands := [(1, 0), (2, 0), (3, 0), (4, 2)] }
    a.locked = true ∧ (a.eval 3 5 10 100 false).1.locked = false ∧ (a.eval 3 5 10 100 true).1.locked = true ∧
    b.locked = false ∧ b.cands.length ≤ 4 ∧ (b.eval 3 5 10 4 true).1.locked = true ∧
    (b.eval 3 5 10 7 true).1 = b := by decide
theorem test_meets_OtnOverheadIsFollowed :
    ((List.range 16).any fun m => (port17 m).portOtn 17 && (port17 m).portEn 17 && (port17 m).coreRuns &&
      !(port17 m).pfb F.LNE_PORT_CTRL_TX_DISABLE 17 && decide ((port17 m).pf F.LNE_PORT_CTRL_LOOPBACK 17 < 2) &&
      !(port17 m).cannotSend 17 && decide ((port17 m).pf F.LNE_PORT_CTRL_LOOPBACK 17 = 0)) = true := by decide +kernel

theorem test_meets_SecurityAssociationsAreCached :
    let s := { on with cry := { on.cry with cache := [(5, {})] } }
    mget s.cry.cache 0x3FFFF = none ∧ s.poisoned (saLA 0x3FFFF) 256 = false ∧ s.cry.espIn = [] ∧ s.que.espOut = [] ∧
    s.fb F.CRY_STATUS_ZERO_DONE = false ∧ (s.setF F.HBM_STATUS_READY 1).hbmReady = true ∧
    (let u := s.setF F.HBM_STATUS_READY 1
     ((u.begin.readEnd (saRead 0x3FFFF)).hbmAsk 3 true [(saLA 0x3FFFF, 256)]).1 = true) := by decide +kernel
theorem test_meets_SecurityAssociationsAreCached_switch :
    let a : SaEntry := { valid := true, type := 3, nextValid := true, nextSa := 262143 }
    let s := { on with cry := { on.cry with sa := [(262142, a), (262143, { valid := true, type := 3 })] } }
    s.writable .fw .CRY_SA_SWITCH 0 0 0 ∧ F.CRY_SA_SWITCH_SA.of 0x3FFFE = 262142 ∧ s.successor 262142 = some 262143 := by
  unfold State.writable; decide +kernel
theorem test_meets_TransmitNumbersNeverRepeat :
    let a : SaEntry := { valid := true, nextPn := 1, limit := 10 }
    let b : SaEntry := { valid := true, nextPn := 2 ^ 64 }
    let s := { on with cry := { on.cry with sa := [(5, a), (6, b)] } }
    (s.sa 5).nextPn ≤ (s.sa 5).maxPn ∧ (s.sa 6).maxPn < (s.sa 6).nextPn ∧ s.successor 6 = none ∧ (s.sa 6).switched = none ∧
    (s.sa 7).valid = false ∧ (s.sa 7).switched = none ∧ 0 < 1 := by decide +kernel
/-- Port 17's MKA service as m, after the zeroing. -/
def mka17 (m : MkaPort) : State :=
  { (((port17 1).setF F.CRY_TX_SA_EN 1 17).setF F.CRY_TX_SA_SA 5 17).setF F.CRY_PORT_CFG_MACSEC_EN 1 17 with
    mka := { on.mka with ports := [(17, m)], caks := [(17, ([], []))] }
    cry := { on.cry with sa := [(5, { valid := true, limit := 1, nextPn := 2 })] } }
theorem test_meets_KeyAgreementProceeds :
    let m : MkaPort := { run := true, secured := true, sakLife := 5, oldRx := [(1, 9), (2, 10)] }
    let p : MkaPeer := ⟨[7], 1, 2, 3⟩
    let b : MkaPort := { m with peer := some p, rekey := some ⟨1, 6, 7, 2 ^ 32 - 1, []⟩ }
    let s := mka17 m
    (s.mkaPort 17).run = true ∧ (s.mkaPort 17).secured = true ∧ (s.mkaPort 17).sakLife ≠ 0 ∧
    (s.mkaPort 17).oldRx = (1, 9) :: [(2, 10)] ∧ s.fb F.CRY_STATUS_ZERO_DONE = true ∧
    (s.mkaPort 17).peer = none ∧ mget s.mka.caks 17 = some ([], []) ∧ s.fb F.CRY_TX_SA_EN 17 = true ∧
    (s.sa (s.f F.CRY_TX_SA_SA 17)).valid = true ∧
    (s.sa (s.f F.CRY_TX_SA_SA 17)).limit < (s.sa (s.f F.CRY_TX_SA_SA 17)).nextPn ∧ s.mkaRuns 17 = true ∧
    (s.mkaPort 17).server = false ∧ s.cannotSend 17 = false ∧ s.pf F.LNE_PORT_CTRL_LOOPBACK 17 = 0 ∧ s.portOtn 17 = false ∧
    (s.setPf F.LNE_PORT_CTRL_TX_DISABLE 1 17).cannotSend 17 = true ∧ ({ m with prio := 255 } : MkaPort).elected 0 1 = false ∧
    ((mka17 b).mkaPort 17).peer = some p ∧ p.member ≠ [8] ∧ ((mka17 b).mkaPort 17).crowd = false ∧
    ((mka17 b).mkaPort 17).rekey = some ⟨1, 6, 7, 2 ^ 32 - 1, []⟩ := by decide +kernel
/-- What an edited frame holds is left out here, and with it the frames to seal: the adjacency's rewrite is uninterpreted. -/
theorem test_meets_EgressSendsFrames :
    let s := { port17 1 with que := { on.que with toEdit := [(17, pk)], toLine := [(17, [(pk, pk.bytes)])] } }
    let u := { on.setPf F.LNE_PORT_CTRL_DOWN_ACT 1 17 with que := { on.que with toLine := [(17, [(pk, pk.bytes)])] } }
    let w := { s with buf := { s.buf with link := [(3, { state := true, owners := 2 }), (4, { state := true, last := true, owners := 1 })] } }
    s.que.toEdit = [(17, pk)] ∧ s.pktBad pk = false ∧ mgetD s.que.espOut 1 [] = [] ∧ s.fb F.CRY_STATUS_ZERO_DONE = true ∧
    pk.chains = [] ∧ pk.espEn = false ∧ s.cannotSend 17 = false ∧ s.portOtn 17 = false ∧
    s.fb F.CRY_PORT_CFG_MACSEC_EN 17 = false ∧ mgetD s.que.toLine 17 [] = [(pk, pk.bytes)] ∧
    u.cannotSend 17 = true ∧ u.pfb F.LNE_PORT_CTRL_DOWN_ACT 17 = true ∧ s.pf F.LNE_PORT_CTRL_LOOPBACK 17 = 0 ∧
    (s.setPf F.LNE_PORT_CTRL_LOOPBACK 2 17).cannotSend 17 = false ∧
    (w.linkOf 3).state = true ∧ 1 < (w.linkOf 3).owners ∧ (∀ x ∈ w.segsOf 4, (w.linkOf x).state = true) ∧
    (w.linkOf 4).owners ≤ 1 ∧ w.pktBad { pk with chains := [3] } = false ∧ w.pktBad { pk with chains := [4] } = false := by
  decide +kernel

/-! ### Exact match and the ternary die -/

/-- Table 15 of the near store, enabled and cleared, with one dynamic entry of key 9. -/
def xmt : State :=
  (((on.setF F.XMT_TBL_CFG_EN 1 15).setF F.XMT_TBL_CFG_KEY_BITS 48 15).setF F.XMT_STATUS_CLEAR_DONE 1).setF F.XMT_CTRL_SWEEP_EN 1

/-- The table after EM_INSERT's search for room put key 9 there. -/
def xmt9 : State := (xmt.xInsert { kind := 0, table := 15, key := 9, result := 4 }).2

theorem test_meets_InsertedEntryIsFound : (xmt.xInsert { kind := 0, table := 15, key := 9, result := 4 }).1 = .ok := by
  decide +kernel
theorem test_inserted_found : ((xmt9.xFind 15 9).bind xmt9.xAt).map (·.result) = some 4 := by decide +kernel
theorem test_meets_ExactMatchStores :
    let s := { xmt9 with exm := { xmt9.exm with reqs := [(0, [⟨517, 0, 3, 15, 9, false, false, 0, true, true⟩])], learn := [(0, [⟨15, 9, 7⟩])]
                                                fifo := [(0, [.free 15 0 1])] } }
    let u := { xmt9 with exm := { xmt9.exm with fifo := [(0, [.removal 15 9])] } }
    s.coreRuns = true ∧ s.hbm.poison = [] ∧ mwf s.exm.ent = true ∧ s.xEn 15 = true ∧ s.fb F.XMT_STATUS_CLEAR_DONE = true ∧
    s.fb F.XMT_CTRL_SWEEP_EN = true ∧ s.exm.cam = [] ∧ s.xFifo 0 = [.free 15 0 1] ∧ s.xFifo 1 = [] ∧
    (on.setF F.HBM_STATUS_READY 1).hbmReady = true ∧ u.xFifo 0 = [.removal 15 9] ∧ s.xStore 15 = 0 ∧ on.fb F.XMT_STATUS_CLEAR_DONE = false ∧
    entDue { kind := 1, expired := true } = true ∧ s.hst.learned.length < 4096 := by decide +kernel
theorem test_meets_ExactMatchStores_asks :
    let s := (xmt9.setF F.HBM_STATUS_READY 1).setF F.XMT_TBL_CFG_STORE 1 15
    let v : W32 := (s.rd .XMT_TBL_CFG 15 0 0).setWidth 32 &&& 0x7FFFFFFF
    s.xStore 15 = 1 ∧ s.lookRoom true (s.lookWays ⟨517, 0, 3, 15, 9, false, false, 0, true, true⟩) = true ∧
    (s.begin.hbmAsk 2 true (farSpans (s.lookWays ⟨517, 0, 3, 15, 9, false, false, 0, true, true⟩))).1 = true ∧
    (s.begin.hbmAsk 2 true (farSpans (s.keyWays 15 9))).1 = true ∧
    (s.begin.hbmAsk 2 true (farSpans ((List.range 4).map (entKey 1 0)))).1 = true ∧
    s.writable .fw .XMT_TBL_CFG 15 0 0 ∧ s.xEn 15 = true ∧ F.XMT_TBL_CFG_EN.of (v.setWidth 64) = 0 ∧
    (s.rd .XMT_TBL_CFG 15 0 0 ^^^ v.setWidth 64) &&&
      ~~~(BitVec.ofNat 64 (F.XMT_TBL_CFG_EN.mask + F.XMT_TBL_CFG_LEARN.mask)) = 0 ∧
    s.exm.swept.contains 1 = false := by
  unfold State.writable; decide +kernel
theorem test_meets_FencesAndNotices :
    let s := { on.setF F.XMT_FENCE_WARN_US 1 with
      pica := { on.pica with num := 100 }
      exm := { on.exm with fences := [⟨255, 3, false⟩] }
      hst := { on.hst with learned := [⟨0, 15, 0, false, 0, 9, 4, true⟩] } }
    let u := { s with ppe := (th (.send q) 0 0 0).ppe }
    s.exm.fences = [⟨255, 3, false⟩] ∧ (∀ p ∈ s.insidePicas, 3 ≤ p) ∧ (∃ p ∈ u.insidePicas, p < 3) ∧
    s.f F.XMT_FENCE_WARN_US * 1000 < (s.pica.num - 3) * 16 ∧ s.hst.learned = [⟨0, 15, 0, false, 0, 9, 4, true⟩] := by decide +kernel
theorem test_meets_FencesAndNotices_room :
    let s := ((on.setF F.HST_CTRL_NOTICE_EN 1).setF F.HST_CTRL_NOTICE_CQ 63).setF F.HST_CQ_CFG_EN 1 63
      |>.setF F.HST_CQ_CFG_SIZE 1 63
    on.fb F.HST_CTRL_NOTICE_EN = false ∧ s.fb F.HST_CTRL_NOTICE_EN = true ∧ s.cqRoom 63 2 = true ∧
    (s.setF F.HST_CQ_PI_INDEX (2 ^ s.f F.HST_CQ_CFG_SIZE 63) 63).cqRoom 63 1 = false := by decide +kernel
theorem test_meets_TernarySearches_retire : on.writable .fw .TRN_PORT_RETIRE 0 0 0 ∧ on.portLive 15 = true ∧
    on.trn.bad = [] ∧ mgetD on.trn.held 7 [] = [] ∧ on.trn.tested = false := by
  unfold State.writable; decide +kernel
theorem test_meets_TernarySearches :
    let q : TdReq := ⟨517, 0, .eng 3, 63, 0, 9, false⟩
    let s := { ((on.setF F.TRN_TBL_CFG_EN 1 63).setF F.TRN_BLK_CFG_EN 1 1023).setF F.TRN_BLK_CFG_TABLE 63 1023 with
      trn := { on.trn with q := [(15, [q])], fifo := [.run ⟨0, 8, 1⟩], slots := [(15, 31)]
                           rows := [(4194303, { valid := true, value := 9, mask := 2 ^ 80 - 1 })] } }
    s.portQ 15 = [q] ∧ (∀ kv ∈ s.trn.rows, kv.1 < 2 ^ 22) ∧ s.fb F.TRN_TBL_CFG_EN 63 = true ∧
    s.f F.TRN_TBL_CFG_WIDTH 63 = 0 ∧ s.f F.TRN_CTRL_SCRUB_RATE ≠ 0 ∧ on.fb F.TRN_STATUS_CLEAR_DONE = false ∧
    s.trn.fifo = [.run ⟨0, 8, 1⟩] ∧ mgetD s.trn.slots 15 0 < 32 ∧ s.rowWaits s.trn.scrub = true ∧ on.rowWaits 0 = false ∧
    (s.row 4194303).valid = true ∧ 4194303 % tdRows 0 = 0 ∧ s.rowTable 4194303 = some 63 ∧ s.blockOn 63 1023 9 = true ∧
    ((9 : Nat) &&& (s.entryVM 4194303 (tdRows 0)).2) = ((s.entryVM 4194303 (tdRows 0)).1 &&& (s.entryVM 4194303 (tdRows 0)).2) := by
  decide +kernel
theorem test_run_behind_others_waits : (after .runMoveEnd { on with trn := { on.trn with fifo := [.command 5 [], .run ⟨0, 8, 1⟩] } }
    fun t => t.trn.fifo.length == 2) = true := by decide +kernel

/-! ### Buffers and queues -/

theorem test_meets_BuffersAndTheLoupe_build :
    let v : W32 := (on.rd .BUF_CTRL 0 0 0).setWidth 32 ||| 0x80000
    on.writable .fw .BUF_CTRL 0 0 0 ∧ F.BUF_CTRL_BUILD.of (v.setWidth 64) = 1 ∧
    (on.rd .BUF_CTRL 0 0 0 ^^^ v.setWidth 64) &&& BitVec.ofNat 64 (Reg.info .BUF_CTRL).rwl = 0 ∧
    on.fb F.BUF_STATUS_CFG_DONE = false := by
  unfold State.writable; decide +kernel
theorem test_meets_BuffersAndTheLoupe_built :
    let s := { (on.setF F.BUF_POOL_CFG_EN 1 0).setF F.BUF_POOL_CFG_COUNT 4 0 with buf := { on.buf with building := true } }
    s.buf.building = true ∧ s.bufCfgOk = true ∧ on.bufCfgOk = false := by decide +kernel
theorem test_meets_BuffersAndTheLoupe_stale :
    let s := { (on.setF F.BUF_LOUPE_STATUS_BUSY 1).setF F.BUF_POOL_CFG_EN 1 0 |>.setF F.BUF_POOL_CFG_COUNT 4 0 with
      buf := { on.buf with link := [(3, { state := true, mark := true })], loupe := { sweeping := true, stale := [3] } } }
    s.buf.loupe.sweeping = true ∧ true = !s.buf.loupe.mark ∧ s.buf.loupe.sweep ≤ s.linkPlace 3 ∧
    s.linkPlace 3 < s.buf.loupe.sweep + 64 ∧ s.linkPlace 3 < s.linkTotal ∧ s.fb F.BUF_CTRL_RECLAIM = false ∧
    s.buf.loupe.reports.length < 64 ∧ s.buf.loupe.stale.contains 3 = true := by decide +kernel
theorem test_meets_BuffersAndTheLoupe :
    let s := { (on.setF F.BUF_CTRL_LOUPE_EN 1).setF F.BUF_STATUS_CFG_DONE 1 with buf := { on.buf with building := true } }
    let u := { on.setF F.BUF_LOUPE_STATUS_BUSY 1 with buf := { on.buf with loupe := { walk := 1048512 } } }
    let w := { on.setF F.BUF_LOUPE_STATUS_BUSY 1 with buf := { on.buf with loupe := { sweeping := true, sweep := 2 ^ 30 } } }
    let a := { s with pica := { s.pica with num := 62500 * 1000 } }
    a.buf.loupe.since + a.auditMs * 62500 ≤ a.pica.num ∧
    s.buf.building = true ∧ s.fb F.BUF_CTRL_LOUPE_EN = true ∧ s.fb F.BUF_LOUPE_STATUS_BUSY = false ∧
    1048576 ≤ u.buf.loupe.walk + 64 ∧ u.buf.loupe.sweeping = false ∧ w.linkTotal ≤ w.buf.loupe.sweep := by decide +kernel
/-- Pool 0 of four buffers of 128 bytes, n of them taken. -/
def pool0 (n : Nat) : State :=
  { (on.setF F.BUF_POOL_CFG_EN 1 0).setF F.BUF_POOL_CFG_COUNT 4 0 with buf := { on.buf with pools := [(0, (n, []))] } }
theorem test_meets_QueuesHoldAndSpill_restored : ((pool0 4).begin.storeChain false 0 1 64).1 = .empty 0 ∧
    ((pool0 3).begin.storeChain false 0 1 64).1 = .chain (some 3) := by decide +kernel
theorem test_meets_QueuesHoldAndSpill :
    let s := { on.setF F.HBM_STATUS_READY 1 with
      que := { on.que with arrivals := [pk], mc := [⟨pk, false⟩], flush := some (0, [pk]), desc := [(0, 2 ^ 63), (6, 2 ^ 63)]
                           node := [(nodeKey 0 255, (2 ^ 63, 0))]
                           q := [(5, { restored := [pk] }), (6, { hbm := [{ handle := 4 }], spilling := true })] }
      buf := { on.buf with full := [(0, { handle := 3, frames := [pk] })] } }
    s.que.arrivals = [pk] ∧ s.mayName .send pk.qid = true ∧ (s.qOf pk.qid).spilling = false ∧ (s.limits pk.qid).2.1 = 0 ∧
    s.onDie 0 + 64 ≤ (s.limits 0).1 ∧ s.total 0 + 64 ≤ (s.limits 0).2.2.2.1 ∧
    s.groupMembers pk.group = [] ∧ s.que.flush = some (0, [pk]) ∧ (s.qOf 5).restored = [pk] ∧
    s.buf.wrote < 6 ∧ s.bundlesFree ≠ 0 ∧ s.fb F.HBM_STATUS_READY = true ∧ (s.qOf 6).hbm = [{ handle := 4 }] ∧
    (s.qOf 6).restoring = none ∧ s.wantsRestore 6 = true ∧
    s.nodeValid 0 255 = true ∧ s.pica.num % refillPeriod 0 = 0 ∧ s.que.refilled.contains (nodeKey 0 255) = false ∧
    s.que.mcWork = none ∧ s.que.replicas < 128 := by decide +kernel
/-- Group 0 of two members, the second with an adjustment, and a frame in one buffer chain for it. -/
def group0 : State :=
  { on.setF F.HBM_STATUS_READY 1 with
    que := { on.que with mc := [⟨{ pk with chains := [3] }, false⟩], heads := [(0, 2 ^ 63 + 2 * 2 ^ 20)]
                         members := [(0, 2 ^ 63 + 5), (1, 2 ^ 63 + 2 ^ 62 + 6)], desc := [(5, 2 ^ 63), (6, 2 ^ 63)] }
    buf := { on.buf with link := [(3, { state := true, last := true, owners := 65534 })] } }
theorem test_meets_QueuesHoldAndSpill_members :
    let s := group0
    s.groupMembers pk.group = [2 ^ 63 + 5, 2 ^ 63 + 2 ^ 62 + 6] ∧ (s.begin.hbmAsk 2 true (s.groupSpans pk.group)).1 = true ∧
    (s.linkOf 3).owners + 2 - 1 ≤ 65535 ∧ pk.yellow = false ∧
    ∀ q ∈ [5, 6], s.mayName (.replica false) q = true ∧ (s.qOf q).spilling = false ∧ (s.limits q).2.1 = 0 ∧
      s.onDie q + pk.bytes.length ≤ (s.limits q).1 ∧ s.total q + pk.bytes.length ≤ (s.limits q).2.2.2.1 := by decide +kernel
theorem test_replicas_share_the_chain : (after .mcReplicate group0 fun t => (t.linkOf 3).owners == 65535 &&
    (t.qOf 5).frames.length == 1 && (t.qOf 6).frames.length == 1) = true := by decide +kernel
theorem test_meets_QueuesHoldAndSpill_asks :
    let s := on.setF F.HBM_STATUS_READY 1
    let w := { s with que := { s.que with mcWork := some (⟨pk, false⟩, [1]) } }
    (s.begin.hbmAsk 2 true (s.groupSpans pk.group)).1 = true ∧ (s.begin.hbmAsk 0 false [(bundleLA 0, 4096)]).1 = true ∧
    (s.begin.hbmAsk 1 true [(bundleLA 4, 4096)]).1 = true ∧ w.que.mcWork.isSome = true ∧ w.que.replicas < 128 := by decide +kernel

/-! ### Stacked memory, Triplet, schedulers, fabric and Doublet -/

theorem test_meets_StackedMemoryServes_asks :
    let s := (on.setF F.HBM_STATUS_READY 1).setF F.HBM_CTRL_SCRUB_EN 1
    let v : W32 := 0x80000060
    (s.begin.hbmAsk 6 true [(0x17FFFFF00, 256)]).1 = true ∧
    (let m := s.setF F.HBM_STACK_STATUS_MIGRATING 1 3
     let l := copySpans 3 (m.lpcOf 3 (m.f F.HBM_STACK_STATUS_RETIRED_PCH 3)) (m.f F.HBM_STACK_MIG_PTR 3)
     (m.begin.hbmAsk 6 true (l ++ l)).1 = true) ∧ (s.begin.hbmAsk 6 true [(s.hbm.scrub * 32, 32)]).1 = true ∧
    on.writable .fw .HBM_RETIRE 0 0 0 ∧ F.HBM_RETIRE_GO.of (v.setWidth 64) = 1 ∧ F.HBM_RETIRE_STACK.of (v.setWidth 64) = 3 ∧
    F.HBM_RETIRE_PCH.of (v.setWidth 64) = 0 ∧ 0 ≠ on.spare 3 ∧ on.pchState 3 0 ≠ 2 ∧ on.pchMoving 3 0 = false ∧
    (on.setPch 3 (on.spare 3) 3).spareFree 3 = true := by
  unfold State.writable; decide +kernel
theorem test_meets_StackedMemoryServes :
    let s := ((on.setF F.HBM_STATUS_READY 1).setF F.HBM_CTRL_SCRUB_EN 1).setF F.HBM_CTRL_IDLE_US 1
    let m := s.setF F.HBM_STACK_STATUS_MIGRATING 1 3
    let e := m.setF F.HBM_STACK_MIG_PTR (m.hbmBlocks - 1) 3
    let u := { on with hbm := { on.hbm with trained := true } }
    s.coreRuns = true ∧ s.fb F.HBM_STATUS_READY = true ∧ s.poisoned 0 32 = false ∧ s.f F.HBM_STACK_CNT_UE 0 < 255 ∧
    m.fb F.HBM_STATUS_READY = true ∧ m.fb F.HBM_STACK_STATUS_MIGRATING 3 = true ∧ m.f F.HBM_STACK_MIG_PTR 3 + 1 < m.hbmBlocks ∧
    e.fb F.HBM_STACK_STATUS_MIGRATING 3 = true ∧ e.hbmBlocks ≤ e.f F.HBM_STACK_MIG_PTR 3 + 1 ∧ s.fb F.HBM_CTRL_SCRUB_EN = true ∧
    s.fb F.HBM_STACK_STATUS_MIGRATING (s.hbm.scrub * 32 / 256 % 124 % 4) = false ∧ s.f F.HBM_CTRL_IDLE_US ≠ 0 ∧ s.pchState 3 30 = 0 ∧
    u.coreRuns = true ∧ u.fb F.HBM_STATUS_READY = false ∧ u.fb F.HBM_STATUS_CAPACITY_MISMATCH = false ∧
    u.fb F.HBM_STATUS_TRAIN_FAIL = false ∧ u.hbm.trained = true ∧ on.fb F.HBM_STATUS_READY = false ∧ on.hbm.trained = false ∧
    on.densityOk ⟨16, false, [31]⟩ = true ∧ on.densityOk ⟨8, false, []⟩ = false := by decide +kernel

/-- One frame in queue 524,293 under line port 127, through one node of each level. -/
def sched : State :=
  { on with
    que := { on.que with
      desc := [(524293, 2 ^ 63 + 2 ^ 40 + 3)]
      q := [(524293, { frames := [pk] })]
      node := [(nodeKey 0 127, (2 ^ 63, 0)), (nodeKey 1 1, (2 ^ 63 + 2 ^ 48, 127)), (nodeKey 2 2, (2 ^ 63 + 2 ^ 48, 1)),
               (nodeKey 3 3, (2 ^ 63 + 2 ^ 48, 2))] } }
/-- Port 127's Galley of two equal intervals, enabled. -/
def galley127 (g : Galley → Galley) : State :=
  let b : GalleyBank := { entries := [(0, 2 ^ 24 + 1000), (1, 2 ^ 25 + 1000)], written := [0, 1], cycle := 2000, len := 2 }
  let s := on.setF F.SHP_GALLEY_CTRL_EN 1 127
  { s with que := { s.que with galley := [(127, g { a := b, b := b })] }, tb := { s.tb with ns := 5000 } }

theorem test_meets_DiesVoteAndSchedule :
    on.lanes 0 = [0, 1, 2] ∧ ({} : TplDir).wants [0] = true ∧ on.f F.TPL_LANE_STAT_DISAGREE 0 2 < 65535 ∧
    sched.coreRuns = true ∧ sched.nodeValid 0 127 = true ∧ sched.l0Held 127 = false ∧ (sched.bucketOf 0 127).peak = true ∧
    mgetD sched.que.picks (nodeSlice 127) 0 < 40 ∧ on.fb F.MGT_STATUS_PROOF = false ∧ sched.buf.qf.hist.length < 64 ∧
    (let r := (sched.begin.gateCleared 127).selectPath ((sched.begin.gateCleared 127).queueWork 127)
      (sched.begin.gateCleared 127).shaped 127
     r.1.map (·.q) = some 524293 ∧ (r.2.dequeue 524293).1 = some pk) := by decide +kernel
theorem test_meets_DiesVoteAndSchedule_enable :
    let s := { on with que := { on.que with node := [(nodeKey 0 127, (2 ^ 63, 2 ^ 16))] } }
    let x : GalleyBank := { entries := [(0, 1000)], written := [0], cycle := 2000, len := 1 }
    let g := { (s.setF F.SHP_GALLEY_CYCLE_CYCLE_NS 2000 127).setF F.SHP_GALLEY_LEN_LENGTH 1 127 with
      que := { s.que with galley := [(127, { a := x, b := x })] } }
    s.writable .fw .SHP_GALLEY_CTRL 127 0 0 ∧ bits (s.nodeOf 0 127).2 39 16 ≠ 0 ∧ s.fb F.SHP_GALLEY_CTRL_EN 127 = false ∧
    (F.SHP_GALLEY_CTRL_EN.of 0x80005500, F.SHP_GALLEY_CTRL_SWITCH.of 0x80005500) = (1, 0) ∧
    F.SHP_GALLEY_CTRL_EN.of 0x20000000 = g.f F.SHP_GALLEY_CTRL_EN 127 ∧ F.SHP_GALLEY_CTRL_SWITCH.of 0x20000000 = 1 ∧
    g.fb F.SHP_GALLEY_STATUS_SWITCH_PENDING 127 = false ∧ (g.idleBank 127).valid = true := by
  unfold State.writable; decide +kernel
theorem test_meets_DiesVoteAndSchedule_galley :
    let a := galley127 ({ · with start := some (false, 4000) })
    let b := galley127 ({ · with start := some (true, 4000), running := true })
    let c := galley127 ({ · with running := true, cycle := 2000 })
    let d := galley127 ({ · with running := true, cycle := 4000 })
    a.coreRuns = true ∧ a.fb F.SHP_GALLEY_CTRL_EN 127 = true ∧ (a.galley 127).start = some ((a.galley 127).active, 4000) ∧
    4000 ≤ a.tb.total ∧ (b.galley 127).start = some (!(b.galley 127).active, 4000) ∧
    (c.galley 127).start = none ∧ (c.galley 127).running = true ∧ (c.galley 127).cycleEnd ≤ c.tb.total ∧
    (d.galley 127).running = true ∧ (d.galley 127).cycle + (d.galley 127).act.endOf (d.galley 127).entry ≤ d.tb.total ∧
    (d.galley 127).entry + 1 < (d.galley 127).act.plan.length := by decide +kernel

/-- A device of a fabric, its last group's lanes locked. -/
def fab : State :=
  { on with
    boot := { on.boot with mode := 1 }
    fab := { on.fab with align := [(156, { locked := true }), (157, { locked := true }), (158, { locked := true }), (159, { locked := true })] } }
theorem test_meets_FabricCarriesCells :
    let a := { fab with fab := { fab.fab with ctl := [(1023, [⟨3, 7, 1, 5, 6, 0⟩])] } }
    let b := { (fab.setF F.LNE_PORT_CFG_EN 1 7 15).setF F.LNE_PORT_CFG_MODE 1 7 15 with
      que := { sched.que with node := mset sched.que.node (nodeKey 0 127) (2 ^ 63, 2 ^ 16) }
      fab := { fab.fab with req := [(524293, [⟨9, 6, 7⟩])], gen := [(127, 10 ^ 9)] } }
    let c := { fab with
      pica := { fab.pica with num := 10 ^ 6 }
      fab := { fab.fab with voq := [(6, { on := true })], done := [⟨0, pk, false, true⟩]
                            ctx := [(1023 * 8 + 7, { next := 3, epoch := 0, gap := some 0, stream := [1], held := [(5, ⟨[1], 255⟩)] })] } }
    a.coreRuns = true ∧ a.standalone = false ∧ a.que.q = [] ∧ a.fab.voq = [] ∧ a.fab.flows = [] ∧
    a.fab.ctlUsed < a.f F.FAB_DISP_CFG_CTRL_MAX ∧ a.fab.matched = false ∧
    { a with fab := { a.fab with matched := true } }.fab.matched = true ∧
    (List.range 40).find? (fun x => a.reaches (1023 * 8) x && decide (0 < a.freeSlots x)) = some 39 ∧
    a.fabLive 159 = true ∧ (mgetD a.fab.out (159 / 4) []).take 3 = [] ∧ a.fabLive 0 = false ∧
    (mgetD a.fab.align 159 {}).locked = true ∧ a.fabRetired 159 = false ∧ laneHeadOk (laneHead 159 0 false) = true ∧
    b.genRuns 127 = true ∧ b.creditBytes * 100000 ≤ mgetD b.fab.gen 127 0 ∧
    (b.begin.grantQueue 127).1 = some 524293 ∧ mgetD (b.begin.grantQueue 127).2.fab.req 524293 [] = [⟨9, 6, 7⟩] ∧
    mgetD (b.begin.grantQueue 127).2.fab.ctl 9 [] = [] ∧
    (c.voqOf 6).on = true ∧ c.f F.FAB_CREDIT_CFG_REFRESH_US * 1000 ≤ (c.pica.num - (c.voqOf 6).lastOn) * 16 ∧
    c.f F.FAB_REASM_CFG_TIMEOUT_US * 1000 ≤ (c.pica.num - 0) * 16 ∧ c.fab.done = [⟨0, pk, false, true⟩] ∧
    twinCopies ⟨16, { pk with dbl := true }, false, false⟩ ⟨8, { pk with dbl := true }, false, false⟩ = true ∧ 8 / 8 < 16 / 8 := by
  decide +kernel
theorem test_meets_FabricCarriesCells_stores : ((pool0 3).begin.storeChain false 0 1 64).1 = .chain (some 3) ∧
    ((pool0 4).begin.storeChain false 0 1 64).1 = .empty 0 := by decide +kernel
theorem test_lower_endpoint_first : (nextFab (fun _ => true) [⟨16, { pk with dbl := true }, false, false⟩,
    ⟨8, { pk with dbl := true }, false, false⟩]).map (·.1) = some 1 := by decide +kernel
theorem test_meets_FabricPromises : 39 < fab.groupCount ∧ (on.eliminate 5 9).1 = none ∧
    (⟨3, 7, 255, 2 ^ 20 - 1, 2 ^ 20 - 1, 0⟩ : Credit).kind < 4 := by decide +kernel
/-- A control cell made for this device is taken, and one for another endpoint is not. -/
theorem test_cell_for_another : ((fab.fabCell (mkCell 2 0 0 1 3 255 0 [])).rd .FAB_RX_DROPS 0 0 0 ==
    fab.rd .FAB_RX_DROPS 0 0 0) = false := by decide +kernel

/-- A principal member with its twin link up over locked lane 1. -/
def pair : State :=
  let s := (on.setF F.RED_STATUS_PRINCIPAL 1).setF F.RED_STATUS_TWIN_UP 1
  { s with boot := { s.boot with mode := 2 }, twin := { s.twin with align := [(1, { locked := true })] }
           pica := { s.pica with num := 10000 }, grp := { s.grp with holds := [] } }
theorem test_meets_MembersShareTheWork_cells :
    let a := { pair with twin := { pair.twin with due := [1], unacked := [(3, { payload := [], fh := 0, ends := [] })] } }
    let b := { pair with twin := { pair.twin with queue := [.stream 1 2] } }
    a.coreRuns = true ∧ a.mgmt = true ∧ a.doublet = true ∧ a.twinLive 1 = true ∧ a.twin.toSend = [] ∧ a.twin.part = none ∧ a.twin.far.contains 1 = false ∧
    a.fromPeer (BitVec.ofNat 10 a.myEp) (BitVec.ofNat 10 (a.f F.RED_CTRL_PEER_EP)) = true ∧
    a.twin.due.contains 1 = true ∧ a.twin.queue = [] ∧ b.twin.due.contains 1 = false ∧ b.twin.queue = [.stream 1 2] ∧
    b.twin.unacked = [] ∧ b.twinUp = true ∧ (mgetD b.twin.align 1 {}).locked = true ∧ b.twinRetired 1 = false ∧
    b.helloOk ⟨b.twinVer, 1 - b.member, false, false, false, false, false, 0, 0⟩ = true ∧ b.principal = true ∧
    a.twin.unacked ≠ [] ∧ a.twin.acked + 1250 ≤ a.pica.num ∧ a.twin.lastHello + 6250 ≤ a.pica.num := by decide +kernel
theorem test_meets_MembersShareTheWork_snapshot :
    let d := { pair with twin := { pair.twin with snap := true } }
    let e := { d with twin := { d.twin with nearPos := bucketCount 0 + camSize 0, farPos := bucketCount 1 + camSize 1 } }
    d.twin.snap = true ∧ d.principal = true ∧ d.twinUp = true ∧ d.twin.queue.length ≤ 16000 ∧
    walked 0 d.twin.nearPos = false ∧ walked 0 e.twin.nearPos = true ∧ walked 1 e.twin.farPos = true ∧
    e.tailRecs.drop e.twin.tailPos = [] ∧ (d.setF F.HBM_STATUS_READY 1).begin.farWalkRead.1 = true := by decide +kernel
theorem test_meets_MembersShareTheWork_roles :
    let c := { pair.setF F.RED_STATUS_PRINCIPAL 0 with cb := [(16383, { mode := 1 })] }
    let f := pair.setF F.RED_STATUS_ARB_ROLE 1
    let g := { pair with grp := { pair.grp with holds := [.fatal] }, red := { pair.red with fatals := [0, 0, 0, 0] } }
    c.twinUp = true ∧ c.principal = false ∧ mget c.cb 16383 = some { mode := 1 } ∧ c.fb F.RED_STATUS_ARB_ROLE = false ∧
    f.fb F.RED_STATUS_ARB_ROLE = true ∧ f.principal = true ∧ { f with red := { f.red with promoting := true } }.red.promoting = true ∧
    f.fatalHeld = false ∧ g.fatalHeld = true ∧ g.fb F.RED_FATAL_HELD = false ∧
    (g.red.fatals.filter fun u => decide (g.tb.up < u + 600)).length = 4 ∧ g.coreRuns = true := by decide +kernel

/-! ### Resets, start-up, host access and services. The digest and the signature of an image and the seal of a
store are too long to compute here, and a vote window's CRC is uninterpreted; the other hypotheses are shown. -/

theorem test_meets_ResetsAndReleases :
    let a := { on with grp := { on.grp with sysRstLow := true } }
    let b := { on with grp := { on.grp with perstLow := true } }
    let c := { on with grp := { on.grp with training := true } }
    let d := { on with grp := { on.grp with flush := true } }
    let e := { on with grp := { on.grp with coreUp := false } }
    State.reset.grp.porstLow = true ∧ State.reset.grp.sysRstLow = false ∧ on.grp.porstLow = false ∧
    a.grp.sysRstLow = true ∧ a.grp.porstLow = false ∧ on.grp.hostUp = true ∧ on.grp.linkUp = true ∧
    b.grp.perstLow = true ∧ b.grp.porstLow = false ∧ b.mgmt = true ∧ c.grp.hostUp = true ∧ c.grp.training = true ∧
    d.mgmt = true ∧ d.core = true ∧ d.grp.flush = true ∧ d.grp.flushMgmt = false ∧
    e.mgmt = true ∧ e.core = false ∧ e.grp.holds = [] ∧ e.grp.sysRstLow = false ∧ e.grp.porstLow = false ∧
    on.grp.refLost.contains .lineA = false ∧ State.reset.grp.hostUp = false ∧
    (let x := { State.reset with grp := { State.reset.grp with sysRstLow := true } }
     x.grp.porstLow = true ∧ x.grp.sysRstLow = true ∧ x.grp.mgmtUp = false) ∧
    (let y := { on with hst := { on.hst with wq := [(63, { exec := some ⟨0, []⟩ })] } }
     (y.wqOf 63).exec ≠ none ∧ (on.wqOf 63).exec = none) ∧
    (on.setF F.HST_WQ_STATUS_ENABLED 1 63).fb F.HST_WQ_STATUS_ENABLED 63 = true ∧
    (State.reset.grp.jtag = .bypass ∨ State.reset.grp.jtag = .idcode) ∧
    (let z := { State.reset with grp := { State.reset.grp with jtag := .extest } }
     z.grp.jtag ≠ .bypass ∧ z.grp.jtag ≠ .idcode) := by decide +kernel
theorem test_glitch_ignored : (after (.porstNLow 99) on fun t => t.core && t.mgmt) = true := by decide +kernel
theorem test_power_on_then_release : (after (.porstNRelease false) State.reset fun t =>
    t.mgmt && !t.core && t.stage == 1) = true := by decide +kernel
theorem test_rail_stops : exec .railOutOfTolerance on = .fault .railOutOfTolerance := by rfl
theorem test_rail_in_reset : exec .railOutOfTolerance State.reset = .next State.reset.begin := by rfl
theorem test_sys_rst_outlasts_porst : (after (.porstNRelease false) { State.reset with grp := { State.reset.grp with sysRstLow := true } }
    fun t => !t.mgmt && !t.grp.porstLow) = true := by decide +kernel

theorem test_meets_StartUpAndUpdates :
    let st := fun n => on.setF F.MGT_STATUS_STAGE n
    let a := { st 1 with grp := { on.grp with holds := [.boot] } }
    let b := (st 2).setF F.HBM_STATUS_READY 1
    let c := { st 3 with boot := { on.boot with triedStore := [0, 1] } }
    let d := { ((((st 3).setF F.HBM_STATUS_READY 1).setF F.BUF_STATUS_CFG_DONE 1).setF F.XMT_STATUS_CLEAR_DONE 1).setF
      F.TRN_STATUS_CLEAR_DONE 1 with boot := { on.boot with applyWait := true } }
    let e := { d.setF F.MGT_STATUS_STAGE 4 with boot := { on.boot with watchdog := true } }
    let f := e.setF F.MGT_STATUS_PROOF 1
    let g := { on with boot := { on.boot with flashWait := some (63, .block 0x1000 [1]), upd := { length := 0x8000 } } }
    a.mgmt = true ∧ a.stage = 1 ∧ a.grp.holds = [.boot] ∧ a.grp.refLost = [] ∧ b.stage = 2 ∧ b.core = true ∧
    b.fb F.HBM_STATUS_READY = true ∧ b.grp.testMode = false ∧ b.boot.fuseOwed = none ∧ c.stage = 3 ∧ c.grp.flush = false ∧
    c.boot.applyWait = false ∧ c.storeTry (c.boot.running.storeActive % 2) ≠ 0 ∧
    c.storeTry (1 - c.boot.running.storeActive % 2) ≠ 0 ∧ c.fb F.BUF_STATUS_CFG_DONE = false ∧
    deviceBad ⟨0, 0, false, 0, 8, 600, false, [], [0, 0, 0, 0]⟩ = false ∧ deviceBad ⟨3, 0, false, 0, 8, 600, false, [], [0, 0, 0, 0]⟩ = true ∧
    d.stage = 3 ∧ d.core = true ∧ d.boot.applyWait = true ∧ d.loadReady = true ∧ d.xEn 15 = false ∧
    f.fb F.MGT_STATUS_PROOF = true ∧ f.boot.watchdog = true ∧ f.healthy = true ∧
    (f.setF F.MGT_STATUS_STAGE 3).healthy = false ∧ d.f F.PRS_BANK_STATUS_PENDING = 0 ∧ d.prsCheck 0 (1 - d.prsBank 0) ≠ 0 ∧
    d.buf.building = false ∧ { d.setF F.BUF_STATUS_CFG_DONE 0 with boot := d.boot }.fb F.BUF_STATUS_CFG_DONE = false ∧ g.boot.flashWait = some (63, .block 0x1000 [1]) ∧
    0x1000 + 4096 ≠ g.boot.upd.length ∧ 0x1000 / 0x10000 = 0 := by decide +kernel

theorem test_meets_HostWritesReachTheirRegister :
    on.writable .fw .HST_CQ_CI 63 0 0 ∧ Reg.HST_CQ_CI.has 63 0 0 ∧
    on.pathUp .pcie = true ∧ on.level .pcie < Reg.TIM_ADJ.writeLevel ∧
    on.mustWait (Reg.TIM_ADJ.addr 0 0 0) = false ∧ Reg.TIM_ADJ.has 0 0 0 ∧ (Reg.TIM_ADJ.block == 0xC0) = false ∧
    on.pathUp .fw = true ∧ 1 ≤ on.level .fw ∧ on.mustWait 0x2000014 = false ∧
    on.exporterIgnores .MGT_CTRL 0 = false ∧ (Reg.info .MGT_CTRL).w1c.testBit 0 = false := by
  unfold State.writable Reg.has; decide +kernel
theorem test_meets_HostWritesReachTheirRegister_rows : hostRow (.cqConsume .fw 63 7) = some (.fw, .HST_CQ_CI, 63, 0, 0, 7) ∧
    hostRow (.timAdj .pcie 7) = some (.pcie, .TIM_ADJ, 0, 0, 0, 7) := ⟨rfl, rfl⟩
theorem test_offsets_name_registers : regAt (Reg.addr .HST_CQ_CI 63 0 0) true = some (.HST_CQ_CI, 63, 0, 0, false) ∧
    regAt (Reg.addr .HST_CQ_ADDR 63 0 0) true = some (.HST_CQ_ADDR, 63, 0, 0, false) ∧
    regAt (Reg.addr .HST_CQ_ADDR 63 0 0 + 4) true = some (.HST_CQ_ADDR, 63, 0, 0, true) ∧
    regAt (Reg.addr .XMT_TBL_CFG 15 0 0) true = some (.XMT_TBL_CFG, 15, 0, 0, false) := ⟨rfl, rfl, rfl, rfl⟩
theorem test_meets_HostWritesReachTheirRegister_words :
    let s := { on with grp := { on.grp with coreUp := false } }
    Reg.HST_CQ_CI.readOnly = false ∧ Reg.HST_CQ_CI.info.bits = 32 ∧ Reg.HST_CQ_CI.writeLevel ≤ on.level .fw ∧
    on.mustWait (Reg.addr .HST_CQ_CI 63 0 0) = false ∧ Reg.HST_CQ_ADDR.readOnly = false ∧ Reg.HST_CQ_ADDR.info.bits = 64 ∧
    on.mustWait (Reg.addr .HST_CQ_ADDR 63 0 0 + 4) = false ∧ Reg.XMT_TBL_CFG.readOnly = false ∧
    s.mustWait (Reg.addr .XMT_TBL_CFG 15 0 0) = true ∧ (dieOf (Reg.addr .XMT_TBL_CFG 15 0 0) == .mgmt) = false ∧
    (s.dieQ (dieOf (Reg.addr .XMT_TBL_CFG 15 0 0))).length < 16 := by decide +kernel

theorem test_meets_HostWritesHaveTheirEffects :
    let f := { on with grp := { on.grp with holds := [.fatal] } }
    let e := on.setF F.LNE_PORT_CFG_EN 1 7 15 |>.setF F.LNE_PORT_CFG_MODE 1 7 15
    on.writable .fw .MGT_CTRL 0 0 0 ∧ on.grp.holds = [] ∧ on.core = true ∧ f.writable .fw .MGT_CTRL 0 0 0 ∧ f.fatalHeld = true ∧
    on.fb F.MGT_STATUS_PROOF = false ∧ on.writable .fw .LNE_PORT_CFG 7 15 0 ∧ on.portCfgOk 127 0x80000001 = true ∧
    on.portEn 127 = false ∧ e.writable .fw .LNE_PORT_CFG 7 15 0 ∧ e.portCfgOk 127 1 = true ∧ e.portEn 127 = true := by
  unfold State.writable; decide +kernel
theorem test_meets_HostWritesHaveTheirEffects_blocks :
    on.writable .fw .PRS_COMMIT 0 0 0 ∧ on.f F.PRS_BANK_STATUS_PENDING = 0 ∧ on.writable .fw .PPE_COMMIT 0 0 0 ∧
    on.f F.PPE_BANK_STATUS_PENDING = 0 ∧ on.writable .fw .TPL_RETIRE 0 0 0 ∧ on.lanes 0 = [0, 1, 2] ∧
    on.writable .fw .QUE_FLUSH 0 0 0 ∧ on.fb F.QUE_STATUS_FLUSH_BUSY = false ∧ on.writable .fw .FAB_LANE_RETIRE 0 0 0 ∧
    on.fb F.FAB_STATUS_CFG_ERR = false ∧ on.writable .fw .RED_TWIN_RETIRE 0 0 0 ∧ on.writable .fw .EVT_SW_SET 0 0 0 ∧
    on.writable .fw .EVT_SRC_CFG 1023 0 0 ∧ on.writable .fw .PPE_PC_GLOBAL 0 0 0 := by
  unfold State.writable; decide +kernel
theorem test_meets_HostWritesHaveTheirEffects_queues :
    let w := (on.setF F.HST_WQ_CFG_EN 1 63).setF F.HST_WQ_STATUS_ENABLED 1 63
    let x := { on with hst := { on.hst with smbus := { state := 1, asked := 1 } } }
    let y := { on with hst := { on.hst with smbus := { state := 4 } } }
    on.writable .smbus .HST_SESS_CMD 0 0 0 ∧ (on.sess .smbus).state ≠ 4 ∧ (y.sess .smbus).state = 4 ∧ (x.sess .smbus).state = 1 ∧
    (x.sess .smbus).asked ≤ 1 ∧ (x.levelKey 1).isSome = true ∧
    on.writable .fw .HST_WQ_PI 63 0 0 ∧ on.writable .fw .HST_CQ_CI 63 0 0 ∧ on.writable .fw .HST_WQ_INVAL 63 0 0 ∧
    w.writable .fw .HST_WQ_CFG 63 0 0 ∧ w.fb F.HST_WQ_CFG_EN 63 = true ∧ w.fb F.HST_WQ_STATUS_ENABLED 63 = true ∧
    (w.wqOf 63).exec = none ∧ on.writable .fw .HST_INJ_PI 15 0 0 ∧ on.writable .fw .DMA_CH_PI 15 0 0 ∧
    on.exporterOwns 15 = false ∧ on.writable .fw .DMA_CH_CFG 15 0 0 := by
  unfold State.writable; decide +kernel
theorem test_meets_HostWritesHaveTheirEffects_sizes :
    4 ≤ F.DMA_CH_CFG_SIZE.of (BitVec.ofNat 64 (12 * 2 ^ F.DMA_CH_CFG_SIZE.lo)) ∧
    F.DMA_CH_CFG_SIZE.of (BitVec.ofNat 64 (12 * 2 ^ F.DMA_CH_CFG_SIZE.lo)) ≤ 12 ∧
    7 ≤ F.HST_WQ_CFG_SIZE.of (BitVec.ofNat 64 (17 * 2 ^ F.HST_WQ_CFG_SIZE.lo)) ∧
    F.HST_WQ_CFG_SIZE.of (BitVec.ofNat 64 (17 * 2 ^ F.HST_WQ_CFG_SIZE.lo)) ≤ 17 := by decide +kernel
theorem test_wrong_response_waits_longer : (({ on with hst := { on.hst with smbus := { state := 1, fails := 7 } } }).sessFail
    .smbus).hst.smbus.lockS = 60 := by decide +kernel

theorem test_meets_HostReadsAnswer :
    let s := { on with
      lne := { on.lne with txTs := [(127, [⟨5, 1, 2⟩])] }, cry := { on.cry with notices := [(1, 9)] }
      ppe := { on.ppe with samples := [(31, [⟨1, 2, 3, 0⟩])] }, buf := { on.buf with loupe := { reports := [⟨1, 2, 3⟩] } }
      evt := { on.evt with log := [⟨1023, 0, 0, 0⟩] } }
    s.readable .fw .TIM_TOD_NS 0 0 0 ∧ s.readable .fw .LNE_TX_TS 7 15 0 ∧ mgetD s.lne.txTs 127 [] = [⟨5, 1, 2⟩] ∧
    s.readable .fw .CRY_NOTICE 0 0 0 ∧ s.cry.notices = [(1, 9)] ∧ s.readable .fw .PPE_PC_SAMPLE 7 3 0 ∧
    mgetD s.ppe.samples 31 [] = [⟨1, 2, 3, 0⟩] ∧ s.readable .fw .BUF_LOUPE_REPORT 0 0 0 ∧ s.buf.loupe.reports = [⟨1, 2, 3⟩] ∧
    s.readable .fw .EVT_LOG_REC 0 0 0 ∧ s.evt.log = [⟨1023, 0, 0, 0⟩] ∧ s.readable .fw .TIM_PICA_NUM 0 0 0 ∧
    s.readable .fw .FAB_RX_DROPS 0 0 0 := by unfold State.readable; decide +kernel
theorem test_meets_HostReadsAnswer_late :
    let h : HeldAccess := ⟨.pcie, false, 0x3040000, 0⟩
    let s := { on with bus := { on.bus with qdQ := [h], smbAddr := 0x3040000, smbWait := true, smbTimedOut := true } }
    let b := { on.setF F.HBM_STATUS_READY 1 with
      boot := { on.boot with imageRun := true }, hst := { on.hst with pcie := { state := 3 }, smbus := { state := 1 } } }
    s.mgmt = true ∧ s.dieQ .qd = [h] ∧ s.addrLive h.addr = true ∧ s.bus.smbAddr = 0x3040000 ∧ s.bus.smbTimedOut = true ∧
    s.bus.smbWait = true ∧ on.bus.smbTimedOut = false ∧ (b.sess .smbus).state = 1 ∧ b.pathUp .pcie = true ∧ b.boot.imageRun = true ∧
    b.coreRuns = true ∧ bar2Level (b.bar2LA 0) ≤ b.level .pcie ∧ b.hbm.poison = [] ∧ b.inSpill (b.bar2LA 0) = false ∧
    (b.begin.hbmAsk 5 true [(b.bar2LA 0, 8)]).1 = true ∧ (b.begin.hbmAsk 5 false [(b.bar2LA 8, 8)]).1 = true ∧
    on.inSpill ((on.setF F.HST_CTRL_APERTURE 6).bar2LA 0) = true ∧
    b.bar2LA 8 + 8 ≤ 0x80000000 ∧ b.bar2LA 8 < 0x80000000 ∧ on.level .pcie < bar2Level (on.bar2LA 0) ∧
    0x80000000 ≤ (on.setF F.HST_CTRL_APERTURE 2).bar2LA 0 ∧ bar2Reads (b.bar2LA 0) = true ∧
    (let r := b.setF F.HST_CTRL_APERTURE 2
     0xA4A00000 ≤ r.bar2LA 0x24A00000 ∧ r.bar2LA 0x24A00000 + 8 < 0xC0000000 ∧ r.inSpill (r.bar2LA 0x24A00000) = false ∧
       (r.begin.hbmAsk 5 true [(r.bar2LA 0x24A00000, 8)]).1 = true ∧ bar2Level (r.bar2LA 0x24A00000) ≤ r.level .pcie) := by
  decide +kernel
theorem test_tod_one_moment : (after (.timTodNsRead .pcie) { on with
    tb := { on.tb with sec := 2 ^ 32 + 5, ns := 7 }
    hst := { on.hst with pcie := { state := 2 } } } fun t => t.out == [.readData .pcie [7]]) = true := by decide +kernel

/-- Work queue 63 with one entry in its cache: the opcode, the words after its header, all its completions due, in queue 0. -/
def wqe (op : Nat) (words : List W64) : WqEntry := ⟨0, BitVec.ofNat 64 (op * 2 ^ 56 + (words.length + 4) / 4 * 2 ^ 48 + 2 ^ 47) :: words⟩
/-- A state that runs that entry. -/
def cmd (e : WqEntry) (g : State → State := id) : State :=
  let s := ((on.setF F.HST_WQ_CFG_EN 1 63).setF F.HST_WQ_CFG_CAP 1 63).setF F.HST_WQ_STATUS_ENABLED 1 63
  g { (s.setF F.HST_CQ_CFG_EN 1 0).setF F.HST_WQ_PI_INDEX 4 63 with
    hst := { s.hst with pcie := { state := 3 }, wq := [(63, { cache := [e] })] } }

theorem test_meets_CommandsComplete :
    let f := wqe 1 [0, 0, 0]
    let busy := fun (s : State) => { s with exm := { s.exm with fences := List.replicate 127 ⟨0, 0, false⟩ } }
    (cmd (wqe 0 [0, 0, 0])).cmdStarts 63 0x00 (wqe 0 [0, 0, 0]) [] 0 false ∧
    (cmd f).cmdStarts 63 0x01 f [] 1 true ∧ ((cmd f).begun 63 f []).fenceIssue.1 = some 1 ∧
    (cmd f busy).cmdStarts 63 0x01 f [] 1 true ∧ 127 ≤ (cmd f busy).exm.fences.length := by
  unfold State.cmdStarts State.runsEntry; decide +kernel
theorem test_meets_CommandsComplete_fences :
    let f := wqe 1 [0, 0, 0]
    let w := wqe 2 [0, 0, 0]
    let low := fun (s : State) => { s with hst := { s.hst with pcie := {} } }
    let off := fun (s : State) => { s with grp := { s.grp with coreUp := false } }
    (cmd f low).runsEntry 63 0x01 f [] ∧ (cmd f low).wqLevel 63 = 0 ∧
    (cmd f off).runsEntry 63 0x01 f [] ∧ 1 ≤ (cmd f off).wqLevel 63 ∧ (cmd f off).coreLive = false ∧
    (cmd w).cmdStarts 63 0x02 w [] 1 true ∧ (cmd w).fenceDone (w.w 1 % 256) = true ∧
    (cmd (wqe 2 [1, 0, 0])).fenceDone ((wqe 2 [1, 0, 0]).w 1 % 256) = false := by
  unfold State.cmdStarts State.runsEntry; decide +kernel
theorem test_meets_CommandsComplete_tables :
    let e := wqe 8 (0x1400000100000000 :: [0, 0, 0xFF, 0, 0, 0])
    let r := wqe 9 [0x14000001000003FF, 0x1000, 0]
    let a := wqe 0x30 [0x1400000F00000001, 0, 0x70000000]
    (cmd e).cmdStarts 63 0x08 e [] (writeLevel e.target) true ∧ targetReady e.target ((cmd e).begun 63 e []) = true ∧
    (targetOf e.target).isSome = true ∧ bits (e.w 1) 47 32 * 8 ≤ 32 * (e.len - 1) ∧
    (cmd r).cmdStarts 63 0x09 r [] 1 true ∧ r.target = 0x14 ∧ bits (r.w 1) 47 32 = 1 ∧ bits (r.w 1) 31 0 < 1024 ∧
    (cmd a).cmdStarts 63 0x30 a [] (writeLevel a.target) true ∧ targetReady a.target ((cmd a).begun 63 a []) = true ∧
    (targetOf a.target).isSome = true ∧ mget (cmd a).hst.arms (bits (a.w 1) 35 32) = none := by
  unfold State.cmdStarts State.runsEntry; decide +kernel
theorem test_meets_CommandsComplete_exact :
    let e := fun op => wqe op [0xF400000000000007, 0, 9, 0, 0, 0, 0]
    let g := fun (u : State) => (fun (s : State) => { s with regs := s.regs ++ [], exm := u.exm })
    let up := fun (s : State) => ((s.setF F.XMT_STATUS_CLEAR_DONE 1).setF F.XMT_TBL_CFG_EN 1 15).setF F.XMT_TBL_CFG_KEY_BITS 48 15
    let s := fun op => cmd (e op) up
    (s 0x10).cmdStarts 63 0x10 (e 0x10) [] 1 true ∧ (e 0x10).xKind ≠ 3 ∧ (s 0x10).xEn (e 0x10).xTable = true ∧
    (s 0x11).cmdStarts 63 0x11 (e 0x11) [] 1 true ∧ (s 0x12).cmdStarts 63 0x12 (e 0x12) [] 1 true ∧
    (s 0x13).cmdStarts 63 0x13 (e 0x13) [] 1 true ∧
    (g xmt9 (s 0x11)).xFind 15 ((s 0x11).xKey 15 9) ≠ none := by
  unfold State.cmdStarts State.runsEntry; decide +kernel
theorem test_meets_CommandsComplete_acts : (on.setF F.XMT_TBL_CFG_EN 1 15).emActs 15 9 (on.setF F.XMT_TBL_CFG_EN 1 15) := by
  unfold State.emActs
  rw [if_neg (by decide +kernel)]
  exact ⟨by decide +kernel, by decide +kernel, by decide +kernel, rfl⟩
theorem test_meets_CommandsComplete_behind :
    let e := wqe 0x12 [0xF400000000000007, 0, 9, 0, 0, 0, 0]
    let up := fun (s : State) => (((s.setF F.XMT_STATUS_CLEAR_DONE 1).setF F.XMT_TBL_CFG_EN 1 15).setXFifo 0 [.command 62])
    (cmd e up).cmdStarts 63 0x12 e [] 1 true ∧ (cmd e up).fb F.XMT_STATUS_CLEAR_DONE = true ∧ (cmd e up).xEn e.xTable = true ∧
    e.xKind ≠ 3 ∧ (cmd e up).xFifo ((cmd e up).xStore e.xTable) = [.command 62] ∧
    (cmd e up).xFifo (1 - (cmd e up).xStore e.xTable) = [] ∧ XOp.command 63 ∉ [.command 62] := by
  unfold State.cmdStarts State.runsEntry; decide +kernel
theorem test_delete_waits_behind : (after (.emDelete 63)
    (cmd (wqe 0x12 [0xF400000000000007, 0, 9, 0, 0, 0, 0]) fun s =>
      ((s.setF F.XMT_STATUS_CLEAR_DONE 1).setF F.XMT_TBL_CFG_EN 1 15).setXFifo 0 [.command 62]) fun t =>
    t.xFifo 0 == [.command 62, .command 63]) = true := by decide +kernel
/-- The SA region zeroed, and one ESP SA installed. -/
def sas (pin : Bool) (s : State) : State :=
  { s.setF F.CRY_STATUS_ZERO_DONE 1 with cry := { s.cry with sa := [(262143, { valid := true, type := 2, pin := pin })] } }
theorem test_meets_CommandsComplete_keys :
    let i := wqe 0x20 (List.replicate 24 0)
    let u := wqe 0x21 [0x3FFFF, 2 ^ 62, 0]
    (cmd i (sas true)).cmdStarts 63 0x20 i [] 2 true ∧ (cmd i (sas true)).fb F.CRY_STATUS_ZERO_DONE = true ∧
    (cmd u (sas true)).cmdStarts 63 0x21 u [] 2 true ∧ ((cmd u (sas true)).sa u.saIdx).valid = true ∧
    ((cmd u (sas true)).sa u.saIdx).pinned = true ∧ ((cmd u (sas false)).sa u.saIdx).pinned = false ∧
    (cmd u (sas false)).pinRoom u.saIdx = true ∧
    (let full := fun (s : State) => { sas false s with cry := { (sas false s).cry with
       sa := (262143, { valid := true, type := 2 }) ::
         (List.range 12).map fun k => (262143 - 4096 * (k + 1), { valid := true, type := 2, pin := true }) } }
     ((cmd u full).sa u.saIdx).valid = true ∧ ((cmd u full).sa u.saIdx).pinned = false ∧
       (cmd u full).pinRoom u.saIdx = false) := by
  unfold State.cmdStarts State.runsEntry; decide +kernel
theorem test_meets_CommandsComplete_asks :
    let r := fun (s : State) => (sas true s).setF F.HBM_STATUS_READY 1
    let d := wqe 0x22 [5, 0, 0]
    let h := wqe 8 (0x100000010000FFFF :: [0, 0, 0xFF, 0, 0, 0])
    (((cmd d r).begun 63 d []).hbmAsk 3 false (saSpan 5)).1 = true ∧ (((cmd d r).begun 63 d []).hbmAsk 3 true (saSpan 5)).1 = true ∧
    (cmd d r).hbm.poison = [] ∧ h.target = 0x10 ∧ tblSpans 0x10 65535 1 ≠ [] ∧ tblSpans 0x14 1023 1 = [] ∧
    (((cmd h r).begun 63 h []).hbmAsk 2 false (tblSpans 0x10 65535 1)).1 = true ∧
    (cmd d).fb F.HST_CQ_CFG_EN ((cmd d).f F.HST_WQ_CFG_CQ 63) = true ∧ (cmd d).hst.halt = none := by decide +kernel
theorem test_meets_CommandsComplete_sas :
    let d := wqe 0x22 [5, 0, 0]
    let r := wqe 0x23 [5, 0x1000, 0]
    let c := wqe 0x25 (0x207F :: List.replicate 10 0)
    (cmd d (sas true)).cmdStarts 63 0x22 d [] 2 true ∧ (cmd r (sas true)).cmdStarts 63 0x23 r [] 1 true ∧
    (cmd c).cmdStarts 63 0x25 c [] 2 false ∧ bits (c.w 1) 13 8 = 32 ∧ bit (c.w 1) 7 = false ∧
    (({} : Keyring).store ⟨127, [], []⟩).isSome = true ∧
    (let p := wqe 0x25 (0x20FF :: List.replicate 10 0); (cmd p).cmdStarts 63 0x25 p [] 2 false ∧ bit (p.w 1) 7 = true) := by
  unfold State.cmdStarts State.runsEntry; decide +kernel
theorem test_meets_CommandsComplete_bfd :
    let k := wqe 0x48 [3, 0, 0, 0, 0, 0, 0]
    let b := wqe 0x38 [0x3FFF00000001, 0x0F4240000F424003, 0, 0, 0, 0, 0]
    let x := wqe 0x39 [0x3FFF00000000, 0, 0]
    let w := fun (s : State) => { s with hst := { s.hst with bfd := [(16383, {})] } }
    (cmd k).cmdStarts 63 0x48 k [] 2 false ∧ bit (k.w 1) 1 = true ∧ bit (k.w 1) 0 = true ∧
    (cmd b).cmdStarts 63 0x38 b [] 1 false ∧ bfdInRange (b.bfd none) = true ∧ ratesOver [(b.bfd none).txUs] = false ∧
    ratesOver [(b.bfd none).rxUs] = false ∧ (cmd x w).cmdStarts 63 0x39 x [] 1 false ∧ mget (cmd x w).hst.bfd x.bfdId = some {} := by
  unfold State.cmdStarts State.runsEntry; decide +kernel
theorem test_meets_CommandsComplete_blocks :
    let k := wqe 0x41 [0x1000, 0, 0]
    let up := fun (s : State) => { s.setF F.MGT_UPDATE_STATE 1 with boot := { s.boot with upd := { kind := 1, length := 0x2000 } } }
    let last := fun (s : State) => { s.setF F.MGT_UPDATE_STATE 2 with
      boot := { s.boot with upd := { kind := 2, length := 0x2000, blocks := [0] } } }
    (cmd k up).updHeld (k.w 1) = false ∧ (cmd k last).cmdStarts 63 0x41 k [] 2 false ∧ (cmd k last).updBlockCode (k.w 1) = 0 ∧
    (cmd k last).updHeld (k.w 1) = true ∧ (cmd k last).updErases (k.w 1) = false ∧
    ({ on with boot := { on.boot with running := { on.boot.running with proof := false } } }).started = false := by
  unfold State.cmdStarts State.runsEntry; decide +kernel
theorem test_meets_CommandsComplete_images :
    let i := wqe 0x40 [0x0100000000002000, 0, 0]
    let k := wqe 0x41 [0x1000, 0, 0]
    let m := wqe 0x42 [0, 0, 0]
    let n := wqe 0x43 [0, 0, 0]
    let up := fun (s : State) => { s.setF F.MGT_UPDATE_STATE 1 with boot := { s.boot with upd := { kind := 1, length := 0x2000 } } }
    (cmd i).cmdStarts 63 0x40 i [] 2 false ∧ (cmd i).boot.flashWait = none ∧
    (((cmd i).begun 63 i []).updBegin (bits (i.w 1) 63 56) (bits (i.w 1) 31 0)).1 = 0 ∧
    (cmd k up).cmdStarts 63 0x41 k [] 2 false ∧ (cmd k up).updBlockCode (k.w 1) = 0 ∧
    (cmd m).cmdStarts 63 0x42 m [] 2 false ∧ (cmd n).cmdStarts 63 0x43 n [] 2 false := by
  unfold State.cmdStarts State.runsEntry; decide +kernel

theorem test_meets_CommandsComplete_routes :
    let e := fun op => wqe op (0xFC000008FFFFFFFF :: 7 :: 0x0A00 :: List.replicate 12 0)
    let up := fun (s : State) => ((s.setF F.TRN_STATUS_CLEAR_DONE 1).setF F.TRN_TBL_CFG_EN 1 63).setF F.TRN_TBL_CFG_KIND 1 63
    let s := cmd (e 0x18) up
    s.cmdStarts 63 0x18 (e 0x18) [] 1 true ∧ (cmd (e 0x19) up).cmdStarts 63 0x19 (e 0x19) [] 1 true ∧
    (cmd (e 0x1A) up).cmdStarts 63 0x1A (e 0x1A) [] 1 true ∧ s.fb F.TRN_STATUS_CLEAR_DONE = true ∧ (e 0x18).tdTable = 63 ∧
    s.fb F.TRN_TBL_CFG_EN 63 = true ∧ s.fb F.TRN_TBL_CFG_MODE 63 = false ∧ s.fb F.TRN_TBL_CFG_KIND 63 = true := by
  unfold State.cmdStarts State.runsEntry; decide +kernel
theorem test_meets_CommandsComplete_run :
    let e := wqe 0x18 (0xFC000008FFFFFFFF :: 7 :: 0x0A00 :: List.replicate 12 0)
    let up := fun (s : State) => (((s.setF F.TRN_STATUS_CLEAR_DONE 1).setF F.TRN_TBL_CFG_EN 1 63).setF F.TRN_TBL_CFG_KIND 1 63)
    let run := fun (u : State) => { up u with trn := { u.trn with fifo := [.run ⟨0, 8, 1⟩] } }
    (cmd e up).trn.fifo = [] ∧ (cmd e run).trn.fifo = [.run ⟨0, 8, 1⟩] ∧ (cmd e run).trn.fifo.length < 1024 ∧
    (cmd e run).cmdStarts 63 0x18 e [] 1 true ∧ 1024 ≤ (List.replicate 1024 (TdOp.command 5 [])).length := by
  unfold State.cmdStarts State.runsEntry; decide +kernel
theorem test_meets_CommandsComplete_turn :
    let e := wqe 0x1E [0x3FFFFF, 0, 0]
    let up := fun (s : State) => { (((s.setF F.TRN_STATUS_CLEAR_DONE 1).setF F.TRN_TBL_CFG_MODE 1 63).setF F.TRN_BLK_CFG_EN 1 1023).setF
      F.TRN_BLK_CFG_TABLE 63 1023 with
        trn := { s.trn with fifo := [.command 63 [4194303]], rows := [(4194303, { valid := true })] }
        hst := { s.hst with wq := [(63, { exec := some e, level := 1 })] } }
    let s := cmd (wqe 0 [0, 0, 0]) up
    s.mgmt = true ∧ (s.wqOf 63).exec = some e ∧ e.op = 0x1E ∧ 1 ≤ (s.wqOf 63).level ∧ s.coreRuns = true ∧
    s.f F.PWR_STATUS_DEVICE ≠ 3 ∧ s.fb F.TRN_STATUS_CLEAR_DONE = true ∧ s.trn.fifo = .command 63 [4194303] :: [] ∧
    (s.rowTarget e.rWidth e.row).toOption = some (63, 1) ∧ (s.row e.row).valid = true := by decide +kernel
theorem test_meets_CommandsComplete_placed :
    let up := ((on.setF F.TRN_STATUS_CLEAR_DONE 1).setF F.TRN_TBL_CFG_EN 1 63).setF F.TRN_TBL_CFG_KIND 1 63
    ((up.tdPlace 63 8 0 0 0x0A00).map fun x => (x.1, x.2.tdFind 63 8 0 0)) = some (0, some 0) := by decide +kernel
theorem test_meets_CommandsComplete_rows :
    let up := fun (s : State) => (((s.setF F.TRN_STATUS_CLEAR_DONE 1).setF F.TRN_TBL_CFG_MODE 1 63).setF F.TRN_BLK_CFG_EN 1 1023).setF
      F.TRN_BLK_CFG_TABLE 63 1023
    let e := wqe 0x1C (0x3FFFFF :: List.replicate 14 0)
    let r := wqe 0x1F [0x3FFFFF, 0x1000, 0]
    let d := wqe 0x1E [0x3FFFFF, 0, 0]
    let hit := fun (s : State) => { up s with trn := { s.trn with rows := [(4194303, { valid := true })] } }
    (cmd e up).trn.fifo = [] ∧ (cmd e up).cmdStarts 63 0x1C e [] 1 true ∧ (cmd r up).cmdStarts 63 0x1F r [] 1 true ∧ e.row = 4194303 ∧
    ((cmd e up).rowTarget e.rWidth e.row).toOption = some (63, 1) ∧ (cmd d hit).cmdStarts 63 0x1E d [] 1 true ∧
    ((cmd d hit).row d.row).valid = true := by
  unfold State.cmdStarts State.runsEntry; decide +kernel
theorem test_meets_ServicesRun_dma :
    let s := (((on.setF F.HST_WQ_CFG_EN 1 63).setF F.HST_WQ_STATUS_ENABLED 1 63).setF F.HST_WQ_PI_INDEX 4 63).setF F.HST_WQ_CFG_SIZE 6 63
    let d := (((on.setF F.HBM_STATUS_READY 1).setF F.DMA_CH_CFG_EN 1 15).setF F.DMA_CH_PI_INDEX 1 15).setF F.DMA_CH_CFG_ADMIN 1 15
    let desc : List W64 := [0x0000000400000008, 0x1000, 0x70000000, 0]
    let l := { on with hst := { on.hst with late := [(15, some 4)], arms := [(15, ⟨63, ⟨0, [0]⟩, 0x14, 0, 1, 0, 0x70000000, true⟩)] } }
    let r := (l.setF F.TRN_STATUS_CLEAR_DONE 1).setF F.HBM_STATUS_READY 1
    let w := { r with trn := { r.trn with fifo := [.command 5 []] } }
    s.pathUp .pcie = true ∧ s.wqFetches 63 = true ∧ s.wqCause 63 (s.fetchAt 63) 0x0001000000000000 = 0 ∧
    s.wqCause 63 (s.fetchAt 63) 0xFF01000000000000 ≠ 0 ∧ (s.hst.wq.any fun kv => kv.2.exec.isSome) = false ∧
    d.mgmt = true ∧ d.exportRuns 15 = false ∧ d.dmaRuns 15 = true ∧ d.descAllowed 15 (descOf desc) = true ∧
    (d.boot.imageRun = false ∧ { d with boot := { d.boot with imageRun := true } }.descEarly (descOf desc) = false) ∧
    (descOf desc).hbm = true ∧ d.coreRuns = true ∧ d.hbmReady = true ∧ d.hbm.poison = [] ∧ l.f F.PWR_STATUS_DEVICE ≠ 3 ∧
    l.hbm.poison = [] ∧ r.fb F.TRN_STATUS_CLEAR_DONE = true ∧ d.descAllowed 15 (descOf [0, 0, 0, 0]) = false ∧
    mget l.hst.late 15 = some (some 4) ∧ r.hbmReady = true ∧ r.trn.fifo = [] ∧ w.trn.fifo ≠ [] ∧ w.trn.fifo.length < 1024 ∧
    (l.setF F.DMA_CH_STATUS_LATE 1 15).fb F.DMA_CH_STATUS_LATE 15 = true ∧ (mget l.hst.arms 15).map (·.pulsed) = some true ∧ l.fb F.DMA_CH_STATUS_LATE 15 = false ∧
    l.coreRuns = true ∧ targetReady 0x14 l = true := by decide +kernel
theorem test_meets_ServicesRun_rings :
    let s := { (on.setF F.HST_PUNT_CFG_EN 1 15).setF F.HST_INJ_CFG_EN 1 15 with que := { on.que with toPunt := [(15, [pk])] } }
    let i := s.setF F.HST_INJ_PI_INDEX 1 15
    let u := s.setF F.HST_PUNT_PI_INDEX (2 ^ s.f F.HST_PUNT_CFG_SIZE 15) 15
    let slot : List Byte := [60, 0, 0x11, 0] ++ List.replicate 92 0
    let x := { s.setF F.HST_INJ_CFG_OWNER 1 15 with hst := { s.hst with resInj := [(15, [{ port := 17, entry := 0, frame := good64 }])] } }
    s.coreRuns = true ∧ s.fb F.HST_STATUS_HALTED = false ∧ x.fb F.HST_INJ_CFG_OWNER 15 = true ∧
    mgetD x.hst.resInj 15 [] = [{ port := 17, entry := 0, frame := good64 }] ∧ x.gated 1 = false ∧ x.fifoRoom 1 64 = true ∧
    mgetD s.que.toPunt 15 [] = [pk] ∧ pk.chains = [] ∧ s.puntOwned 15 = false ∧ s.secondPunt = false ∧
    s.fb F.HST_PUNT_CFG_EN 15 = true ∧ s.puntFull 15 = false ∧ u.puntFull 15 = true ∧
    i.fb F.HST_INJ_CFG_OWNER 15 = false ∧ i.fb F.HST_INJ_CFG_EN 15 = true ∧
    i.f F.HST_INJ_CI_INDEX 15 ≠ i.f F.HST_INJ_PI_INDEX 15 ∧ (injectDesc slot).1 = 17 ∧ 60 ≤ (injectDesc slot).2.1 ∧
    (injectDesc slot).2.1 ≤ slotBytes (i.f F.HST_INJ_CFG_SLOT 15) - 32 ∧ i.gated 1 = false ∧ i.fifoRoom 1 60 = true ∧
    (injectDesc (List.replicate 96 0)).2.1 < 60 := by decide +kernel

/-- An IPv4 BFD control packet in state Up from 192.0.2.1 to 192.0.2.2, discriminator 7, for discriminator 5. -/
def bfdIn : List Byte :=
  List.replicate 12 0 ++ [0x08, 0, 0x45, 0, 0, 52, 0, 0, 0, 0, 255, 17, 0, 0, 192, 0, 2, 1, 192, 0, 2, 2] ++
  [0xC0, 0, 0x0E, 0xC8, 0, 32, 0, 0] ++ [0x20, 0xC0, 3, 24, 0, 0, 0, 7, 0, 0, 0, 5, 0, 0, 0x27, 0x10, 0, 0, 0x27, 0x10, 0, 0, 0, 0]
theorem test_meets_ServicesRun_bfd :
    let b : BfdSession := { myDisc := 5, state := 2, port := 17 }
    let s := { on with hst := { on.hst with bfd := [(16383, b)], resPunt := [(15, [(17, bfdIn)])] } }
    let r := s.setF F.HST_INJ_CFG_OWNER 1 15
    s.mgmt = true ∧ mgetD s.hst.resPunt 15 [] = [(17, bfdIn)] ∧ bfdFrame [] = none ∧ (bfdFrame bfdIn).isSome = true ∧ s.runsBfd = true ∧
    (((bfdFrame bfdIn).bind fun x => (bfdFields x.2.2.2).map fun p => p.good x.2.2.2.length && !p.auth && !p.poll &&
      s.bfdFor 17 x.1 x.2.1 x.2.2.1 p == some (16383, b)) = some true) ∧
    mget s.hst.bfd 16383 = some b ∧ b.state ≠ 0 ∧ r.residentRing = some 15 ∧
    (mgetD r.hst.resInj 15 []).length < 2 ^ r.f F.HST_INJ_CFG_SIZE 15 := by decide +kernel
theorem test_bfd_up : ((after (.bfdPacketReceive 15)
    { on with hst := { on.hst with bfd := [(16383, { myDisc := 5, state := 2, port := 17 })], resPunt := [(15, [(17, bfdIn)])] } }
    fun t => (mget t.hst.bfd 16383).map (·.state) == some 3)) = true := by decide +kernel

/-! ### Rules of the data path -/

theorem test_meets_IngressFifoKeepsItsLimits : (on.fifoOf 1).length + 1 ≤ 8192 ∧
    ¬ ((on.fifoOf 1).map (·.bytes.length)).sum + 4194305 ≤ 4194304 := by decide
theorem test_fifo_takes : ((on.toFifo fr).fifoOf 1).length = 1 := by decide
theorem test_meets_DoubleFreeIsCaught : (on.linkOf 16777215).state = false := by decide
theorem test_double_free : (on.release 9).fb F.BUF_STATUS_DFREE = true := by decide +kernel
theorem test_meets_ReceivedCellsAreChecked :
    let c := mkCell 1 0 0 1023 3 255 0 []
    let d := mkCell 3 0 0 0 3 255 0 []
    let i := mkCell 0 0 0 0 3 255 0 []
    c.length = 256 ∧ crc16 (slice c 0 14) = beNat (slice c 14 2) ∧ beNat (slice c 1 2) / 32 % 1024 ≠ fab.myEp ∧
    d.length = 256 ∧ beNat (slice d 0 1) / 64 = 3 ∧ crc16 (slice d 0 14) = beNat (slice d 14 2) ∧ i.length = 256 ∧
    beNat (slice i 0 1) / 64 = 0 ∧ crc16 (slice i 0 14) = beNat (slice i 14 2) ∧
    crc16 (slice (List.replicate 256 1) 0 14) ≠ beNat (slice (List.replicate 256 1) 14 2) := by decide +kernel

/-! ### Frames and keys under the standards' algorithms (the long computations stand last) -/

/-- A MACsec frame of 48 bytes of user data, integrity alone, from SCI 9 with packet number 5. -/
def macFrame : List Byte :=
  let b : List Byte := List.replicate 12 0 ++ [0x88, 0xE5, 0x20, 0, 0, 0, 0, 5, 0, 0, 0, 0, 0, 0, 0, 9] ++ List.replicate 48 1
  b ++ Std.gcmSeal (List.replicate 32 0) [0, 0, 0, 0, 0, 0, 0, 9, 0, 0, 0, 5] b []
theorem test_meets_LineFramesAreReceived_macsec :
    let s := { (port17 1).setF F.CRY_PORT_CFG_MACSEC_EN 1 17 with cry := { on.cry with
      sa := [(5, { valid := true, key := List.replicate 32 0 })]
      cam := [(0, { valid := true, port := 17, sci := 9, anValid := 1, sa := [5] })] } }
    s.rxCheck 17 (macFrame ++ fcs macFrame) false ⟨0, false⟩ = none ∧ be16 macFrame 12 = 0x88E5 ∧ 28 + 64 ≤ macFrame.length ∧
    s.scFind 17 9 = some { valid := true, port := 17, sci := 9, anValid := 1, sa := [5] } ∧ (s.sa 5).valid = true ∧
    (s.sa 5).type = 0 ∧ (s.sa 5).limit ≤ 5 ∧
    Std.gcmOpen (s.sa 5).key (beBytes 8 9 ++ beBytes 4 5) (macFrame.take 76) [] (macFrame.drop 76) = some [] ∧
    espFind (macFrame.take 12 ++ slice macFrame 28 48) = none ∧
    (after (.lineFrameReceive 17 (macFrame ++ fcs macFrame) false ⟨0, false⟩) s fun t =>
      (t.fifoOf 1).map (fun x => (x.bytes.length, x.rxSa)) == [(60, 5)] && (t.sa 5).nextPn == 6) = true := by decide +kernel
/-- Test case 13 of the GCM specification: an empty text under AES-256 and the zero key. -/
theorem test_gcm_case_13 : Std.gcmSeal (List.replicate 32 0) (List.replicate 12 0) [] [] =
    [0x53, 0x0F, 0x8A, 0xFB, 0xC7, 0x45, 0x36, 0xB9, 0xA9, 0x63, 0xB4, 0xF1, 0xC4, 0xCB, 0x73, 0x8B] := by decide +kernel
/-- The known answer of SHAKE256 for the empty message. -/
theorem test_shake_empty : Std.shake256 [] 8 = [0x46, 0xB9, 0xDD, 0x2B, 0x0B, 0xA8, 0x8D, 0x13] := by decide +kernel
/-- An ESP frame (IPv4, protocol 50) with SPI 5 and number 1: 20 bytes of UDP and two of padding under the zero key. -/
def espFrame : List Byte :=
  let h : List Byte := [0, 0, 0, 5, 0, 0, 0, 1] ++ List.replicate 8 0
  List.replicate 12 0 ++ [8, 0, 0x45, 0, 0, 76, 0, 0, 0, 0, 64, 50, 0, 0] ++ List.replicate 8 0 ++ h ++
    Std.gcmSeal (List.replicate 32 0) (List.replicate 12 0) (h.take 8) (List.replicate 20 7 ++ [1, 2, 2, 17])
/-- That frame waits with its SA cached. -/
def espIn (key : Byte) : State :=
  { on with cry := { on.cry with cache := [(5, { valid := true, type := 2, id32 := 5, key := List.replicate 32 key })]
                                 espIn := [(1, [{ port := 17, bytes := espFrame }])] } }
theorem test_meets_SecurityAssociationsAreCached_esp :
    (match espFind espFrame with
      | some x => beNat (slice espFrame x.off 4) == 5 && ((espIn 0).sa 5).espMatch x 5
      | none => false) = true ∧
    (mget (espIn 0).cry.cache 5).isSome = true ∧ ((espIn 0).sa 5).valid = true ∧ ((espIn 0).sa 5).ext = false ∧
    (after (.espInbound 1) (espIn 0) fun t => (t.fifoOf 1).map (fun x => (x.valid, x.bytes.length)) == [(true, 54)]) = true := by
  decide +kernel
theorem test_meets_LineFramesAreReceived_esp :
    let s := ((port17 1).setF F.CRY_CTRL_ESP_EN 1).setF F.CRY_PORT_CFG_ESP_IN_EN 1 17
    (espFind espFrame).map (·.frag) = some false ∧ s.fb F.CRY_CTRL_ESP_EN = true ∧ s.fb F.CRY_PORT_CFG_ESP_IN_EN 17 = true ∧
    s.rxCheck 17 (espFrame ++ fcs espFrame) false ⟨0, false⟩ = none ∧
    fifoBytes (mgetD s.cry.espIn 1 []) + espFrame.length ≤ 1048576 := by decide +kernel
theorem test_esp_wrong_key_drops : (after (.espInbound 1) (espIn 1) fun t =>
    t.fifoOf 1 == [] && t.rd .CNT_DROP_TOTAL 0 0 0 == 1) = true := by decide +kernel
/-- RFC 3394, 4.6: 256 bits of key data wrapped under a key of 256 bits. -/
theorem test_unwrap_rfc3394_4_6 : Std.aesUnwrap ((List.range 32).map (BitVec.ofNat 8))
    [0x28, 0xC9, 0xF4, 0x04, 0xC4, 0xB8, 0x10, 0xF4, 0xCB, 0xCC, 0xB3, 0x5C, 0xFB, 0x87, 0xF8, 0x26, 0x3F, 0x57, 0x86, 0xE2,
     0xD8, 0x0E, 0xD3, 0x26, 0xCB, 0xC7, 0xF0, 0xE7, 0x1A, 0x99, 0xF4, 0x3B, 0xFB, 0x98, 0x8B, 0x9B, 0x7A, 0x02, 0xDD, 0x21] =
    some ([0x00, 0x11, 0x22, 0x33, 0x44, 0x55, 0x66, 0x77, 0x88, 0x99, 0xAA, 0xBB, 0xCC, 0xDD, 0xEE, 0xFF] ++
      (List.range 16).map (BitVec.ofNat 8)) := by decide +kernel

end Sys2Proof.Tests
end

section
/-! PROOFS. The slice ingress FIFO (R27): when a frame enters it, what a frame that does not leaves behind, and the obligation
that states both limits. -/
namespace Sys2Proof.Machine

/-- The bytes a FIFO holds are the sum of its frames' lengths. -/
theorem fifoBytes_eq_sum (l : List RxFrame) : fifoBytes l = (l.map fun x => x.bytes.length).sum := by
  rw [fifoBytes, List.sum_eq_foldl, List.foldl_map]

/-- The room for one more frame of n bytes, with both limits of R27 written as numbers. -/
theorem State.fifoRoom_iff (s : State) (sl n : Nat) :
    s.fifoRoom sl n = true ↔ (s.fifoOf sl).length + 1 ≤ 8192 ∧
      ((s.fifoOf sl).map fun x => x.bytes.length).sum + n ≤ 4194304 := by
  rw [State.fifoRoom, Bool.and_eq_true, decide_eq_true_eq, decide_eq_true_eq, fifoBytes_eq_sum, Nat.succ_le_iff]

/-- Counting a drop touches no line or encryption state, so every ingress FIFO stays. -/
@[simp] theorem State.drop_cry (s : State) (code len p side : Nat) : (s.drop code len p side).cry = s.cry := by
  rw [State.drop_same]

theorem State.toFifo_of_room (s : State) (f : RxFrame) (h : s.fifoRoom (f.port / 16) f.bytes.length = true) :
    s.toFifo f = { s with cry := { s.cry with
      fifo := mset s.cry.fifo (f.port / 16) (s.fifoOf (f.port / 16) ++ [{ f with entered := s.pica.num }]) } } :=
  if_pos h

theorem State.toFifo_of_full (s : State) (f : RxFrame) (h : ¬ s.fifoRoom (f.port / 16) f.bytes.length = true) :
    s.toFifo f = s.drop 0x001 f.bytes.length f.port :=
  if_neg h

/-- A frame that enters joins the end of its slice's FIFO, stamped with the pica; the FIFOs of the other slices stay. -/
theorem State.fifoOf_toFifo_of_room (s : State) (f : RxFrame) (k : Nat)
    (h : s.fifoRoom (f.port / 16) f.bytes.length = true) :
    (s.toFifo f).fifoOf k =
      if f.port / 16 = k then s.fifoOf (f.port / 16) ++ [{ f with entered := s.pica.num }] else s.fifoOf k := by
  rw [State.toFifo_of_room s f h]
  exact mgetD_mset _ _ _ _ _

/-- A frame goes to its own slice's FIFO alone, whether it enters or is dropped. -/
theorem State.fifoOf_toFifo_other (s : State) (f : RxFrame) (k : Nat) (hk : k ≠ f.port / 16) :
    (s.toFifo f).fifoOf k = s.fifoOf k := by
  by_cases h : s.fifoRoom (f.port / 16) f.bytes.length = true
  · rw [State.fifoOf_toFifo_of_room s f k h, if_neg hk.symm]
  · simp [State.toFifo_of_full s f h, State.fifoOf]

/-- Settles O56: the limits are the room that `toFifo` asks for (`State.fifoRoom_iff`), and a frame beyond them is a drop. -/
theorem ingressFifoKeepsItsLimits : Obligations.IngressFifoKeepsItsLimits := by
  intro s f q fits
  have hroom : s.fifoRoom (f.port / 16) f.bytes.length = true ↔ fits := State.fifoRoom_iff s _ _
  refine ⟨fun hfits => ?enters, fun hfull => ?dropped, fun k => State.fifoOf_toFifo_other s f k⟩
  case enters =>
    rw [State.fifoOf_toFifo_of_room s f _ (hroom.mpr hfits), if_pos rfl]
  case dropped =>
    rw [State.toFifo_of_full s f (mt hroom.mp hfull)]
    refine ⟨by rw [State.drop_cry], State.drop_total s _ _ _ _, ?reason, fun hport => ?port⟩
    case reason => simp [State.drop_posts]
    case port => simp [State.drop_posts, hport]

end Sys2Proof.Machine
end

section
/-! PROOFS. The header of a received cell (Table 12-2): the number that neighbouring bytes spell, where TYPE, DEST_EP and HCRC
stand, and the checks of R281 that a cell meets before it has an effect. -/
namespace Sys2Proof.Machine

/-! ### Numbers that neighbouring bytes spell -/

theorem foldl_bytes_eq (l : List Byte) (a : Nat) :
    l.foldl (fun a b => a * 256 + b.toNat) a = a * 256 ^ l.length + beNat l := by
  induction l generalizing a with
  | nil => simp only [List.foldl_nil, List.length_nil, Nat.pow_zero, Nat.mul_one, beNat, Nat.add_zero]
  | cons b l ih =>
    rw [beNat, List.foldl_cons, List.foldl_cons, ih (a * 256 + b.toNat), ih (0 * 256 + b.toNat), List.length_cons,
      Nat.pow_succ', Nat.add_mul, Nat.mul_assoc, Nat.zero_mul, Nat.zero_add, Nat.add_assoc]

theorem beNat_append (a b : List Byte) : beNat (a ++ b) = beNat a * 256 ^ b.length + beNat b := by
  rw [beNat, List.foldl_append, foldl_bytes_eq]
  rfl

theorem beNat_cons (b : Byte) (l : List Byte) : beNat (b :: l) = b.toNat * 256 ^ l.length + beNat l := by
  rw [beNat, List.foldl_cons, foldl_bytes_eq, Nat.zero_mul, Nat.zero_add]

theorem beNat_lt (l : List Byte) : beNat l < 256 ^ l.length := by
  induction l with
  | nil => decide
  | cons b l ih =>
    have hb : b.toNat * 256 ^ l.length ≤ 255 * 256 ^ l.length := Nat.mul_le_mul_right _ (Nat.le_of_lt_succ b.isLt)
    rw [beNat_cons, List.length_cons, Nat.pow_succ]
    omega

theorem slice_length {l : List Byte} {o n : Nat} (h : o + n ≤ l.length) : (slice l o n).length = n := by
  rw [slice, List.length_take, List.length_drop]
  omega

theorem slice_add (l : List Byte) (o m n : Nat) : slice l o (m + n) = slice l o m ++ slice l (o + m) n := by
  simp only [slice, List.take_add, List.drop_drop]

theorem beNat_slice_lt {l : List Byte} {o n : Nat} (h : o + n ≤ l.length) : beNat (slice l o n) < 256 ^ n := by
  have hlt := beNat_lt (slice l o n)
  rwa [slice_length h] at hlt

theorem beNat_slice_add {l : List Byte} {o m n : Nat} (h : o + m + n ≤ l.length) :
    beNat (slice l o (m + n)) = beNat (slice l o m) * 256 ^ n + beNat (slice l (o + m) n) := by
  rw [slice_add, beNat_append, slice_length h]

/-! ### The header fields by their bytes -/

section
variable {c : List Byte} (hc : c.length = 256)
include hc

/-- TYPE is the top of byte 0. -/
theorem cell_type_eq : bits (beNat (slice c 0 8)) 63 62 = beNat (slice c 0 1) / 64 := by
  have hsplit : beNat (slice c 0 8) = beNat (slice c 0 1) * 256 ^ 7 + beNat (slice c 1 7) :=
    beNat_slice_add (m := 1) (n := 7) (by omega)
  have hbyte := beNat_slice_lt (l := c) (o := 0) (n := 1) (by omega)
  have hrest := beNat_slice_lt (l := c) (o := 1) (n := 7) (by omega)
  rw [bits]
  omega

/-- DEST_EP lies in bytes 1 and 2. -/
theorem cell_destEp_eq : bits (beNat (slice c 0 8)) 54 45 = beNat (slice c 1 2) / 32 % 1024 := by
  have hsplit : beNat (slice c 0 8) = beNat (slice c 0 1) * 256 ^ 7 + beNat (slice c 1 7) :=
    beNat_slice_add (m := 1) (n := 7) (by omega)
  have hsplit' : beNat (slice c 1 7) = beNat (slice c 1 2) * 256 ^ 5 + beNat (slice c 3 5) :=
    beNat_slice_add (m := 2) (n := 5) (by omega)
  have hrest := beNat_slice_lt (l := c) (o := 3) (n := 5) (by omega)
  rw [bits]
  omega

/-- HCRC is bytes 14 and 15. -/
theorem cell_hcrc_eq : bits (beNat (slice c 8 8)) 15 0 = beNat (slice c 14 2) := by
  have hsplit : beNat (slice c 8 8) = beNat (slice c 8 6) * 256 ^ 2 + beNat (slice c 14 2) :=
    beNat_slice_add (m := 6) (n := 2) (by omega)
  have hcrc := beNat_slice_lt (l := c) (o := 14) (n := 2) (by omega)
  rw [bits, Nat.pow_zero, Nat.div_one]
  omega

theorem cell_not_isEmpty : c.isEmpty = false :=
  List.isEmpty_eq_false_iff.mpr (List.ne_nil_of_length_eq_add_one hc)

/-! ### What the receiver does with a cell that it does not take (R281) -/

theorem State.fabCell_of_headerError (s : State)
    (h : crc16 (slice c 0 14) ≠ beNat (slice c 14 2) ∨ beNat (slice c 0 1) / 64 = 3) :
    s.fabCell c = s.sat F.FAB_RX_DROPS_HDR_ERR 1 := by
  rw [← cell_hcrc_eq hc, ← cell_type_eq hc] at h
  simp only [State.fabCell, cell_not_isEmpty hc, Bool.false_eq_true, if_false, if_pos h]

theorem State.fabCell_of_idle (s : State) (hcrc : crc16 (slice c 0 14) = beNat (slice c 14 2))
    (htyp : beNat (slice c 0 1) / 64 = 0) : s.fabCell c = s := by
  have hok : ¬ (crc16 (slice c 0 14) ≠ beNat (slice c 14 2) ∨ beNat (slice c 0 1) / 64 = 3) := by omega
  rw [← cell_hcrc_eq hc, ← cell_type_eq hc] at hok
  rw [← cell_type_eq hc] at htyp
  simp only [State.fabCell, cell_not_isEmpty hc, Bool.false_eq_true, if_false, if_neg hok, if_pos htyp]

theorem State.fabCell_of_misroute (s : State) (hcrc : crc16 (slice c 0 14) = beNat (slice c 14 2))
    (htyp : beNat (slice c 0 1) / 64 = 1 ∨ beNat (slice c 0 1) / 64 = 2)
    (hep : beNat (slice c 1 2) / 32 % 1024 ≠ s.myEp) :
    s.fabCell c = s.sat F.FAB_RX_DROPS_MISROUTE 1 := by
  have hok : ¬ (crc16 (slice c 0 14) ≠ beNat (slice c 14 2) ∨ beNat (slice c 0 1) / 64 = 3) := by omega
  have hbusy : beNat (slice c 0 1) / 64 ≠ 0 := by omega
  rw [← cell_hcrc_eq hc, ← cell_type_eq hc] at hok
  rw [← cell_type_eq hc] at hbusy
  rw [← cell_destEp_eq hc] at hep
  simp only [State.fabCell, cell_not_isEmpty hc, Bool.false_eq_true, if_false, if_neg hok, if_neg hbusy, if_pos hep]

end

/-- Settles O58: the numbers the receiver reads are the header's bytes, and each check of R281 is one of its branches. -/
theorem receivedCellsAreChecked : Obligations.ReceivedCellsAreChecked := by
  intro s c hc typ
  refine ⟨fun hcrc => ?badCrc, fun hcrc => ⟨fun htyp => ?reserved, fun htyp => ?idle, fun htyp hep => ?misroute⟩⟩
  case badCrc => exact State.fabCell_of_headerError hc s (.inl hcrc)
  case reserved => exact State.fabCell_of_headerError hc s (.inr htyp)
  case idle => exact State.fabCell_of_idle hc s hcrc htyp
  case misroute => exact State.fabCell_of_misroute hc s hcrc htyp hep

end Sys2Proof.Machine
end
